-- ==== Sys2Proof/Word.lean ====
section
/-! DEFINITION. The bit-vector widths of the SARP decoder block (00_scope R7, 10_state R30). A value of one of
these types is a bit sequence whose index 0, in the spec's own numbering, is its most significant bit (00_scope R9). -/
namespace Sys2Proof

/-- A byte: a frame byte register `B[i]`, a command byte, a character. -/
abbrev Byte := BitVec 8
/-- One of the eight words of a message (`WORD_BITS` = 24). -/
abbrev Word24 := BitVec 24
/-- A message of one lane (`MSG_BITS` = 192). -/
abbrev MsgBits := BitVec 192
/-- The frame bit space `FB` and the working buffer `WBUF` (`N_BITS` = 600). -/
abbrev FrameBits := BitVec 600
/-- A beacon payload, left-aligned in 120 bits (`BEACON_LONG_BITS`; 43_message_fields R206). -/
abbrev PayloadBits := BitVec 120

end Sys2Proof
end

