-- ==== Sys2Proof/Config.lean ====
section
/-! DEFINITION. The parameters of 00_scope R7. The open ones, the timestamp width and the contents of
two lookup tables, are constants without a body: nothing can be proved of what they are, so a theorem about the model
is true whatever an implementation puts there. -/
namespace Sys2Proof.Config

/-- `N_SYM`: symbols per block. -/
abbrev N_SYM : Nat := 1200
/-- `N_BITS`: decoded bits per block. -/
abbrev N_BITS : Nat := 600
/-- `N_BYTES`: bytes per frame. -/
abbrev N_BYTES : Nat := 75
/-- `MSG_BITS`: bits per sub-message. -/
abbrev MSG_BITS : Nat := 192
/-- `MARKER`: the marker byte at offsets 0, 24 and 48. -/
abbrev MARKER : Byte := 0xD6
/-- `SYNC`: the sync word at offsets 72, 73, 74. -/
abbrev SYNC : Word24 := 0x42BB1F
/-- `HK_WORD2`: the word2 value that marks HOUSEKEEPING. -/
abbrev HK_WORD2 : Word24 := 0xCE3E00
/-- `SHORT_WORD7`: the word7 value that marks SHORT. -/
abbrev SHORT_WORD7 : Word24 := 0x000001
/-- `SHORT_EXTRACT_BITS`: bits extracted for a SHORT payload. -/
abbrev SHORT_EXTRACT_BITS : Nat := 87
/-- `LONG_EXTRACT_BITS`: bits extracted for a LONG payload; 119 by 90_conflicts C1. -/
abbrev LONG_EXTRACT_BITS : Nat := 119
/-- `F0_MILLIHZ`: (8121/200) x 10 000 000 Hz in millihertz. -/
abbrev F0_MILLIHZ : Int := 406050000000
/-- `DOP_STEP_MILLIHZ`: 0.015 Hz per Doppler count, in millihertz. -/
abbrev DOP_STEP_MILLIHZ : Int := 15
/-- `TS_W`: width of the `now` port and of `TSTAMP`. An open parameter (00_scope R7, assumption 3; safe): uninterpreted,
so that a theorem holds for every width; the spec's default is 64. -/
opaque TS_W : Nat

/-- The width of the port that shows a country's name; 10_state R54 leaves it to `COUNTRY_ROM` (assumption 6; safe):
uninterpreted. -/
opaque NAME_W : Nat

/-- The bits by which the port shows a country's name (assumption 6; safe): uninterpreted. -/
opaque nameBits : String → BitVec NAME_W

/-- A present entry of `COUNTRY_ROM`: the two characters of the alpha-2 code and the name (20_memory R73). -/
structure CountryEntry where
  alpha2 : BitVec 16
  name   : String
  deriving DecidableEq, Repr

/-- `COUNTRY_ROM`: which of the 1024 codes have an entry, and what it is. An open parameter (20_memory R73,
assumption 6; safe): uninterpreted. -/
opaque countryRom : BitVec 10 → Option CountryEntry

/-- The 63 open entries of `BAUDOT_ROM` (20_memory R74, assumption 7; safe): uninterpreted. Its one limit is
44_beacon_payload R246's: the miss marker "*" (0x2A) is no character of the alphabet. -/
opaque baudotOpen : BitVec 6 → Option { c : Byte // c ≠ 0x2A }

end Sys2Proof.Config

namespace Sys2Proof
/-- A value of the port `now` and of the register `TSTAMP`: opaque bits (10_state R43). -/
abbrev Timestamp := BitVec Config.TS_W
end Sys2Proof
end

