-- ==== Sys2Proof/Syntax.lean ====
section
/-! DEFINITION. The instructions: one constructor per row of spec/opcode_table.json (30_encoding R119), and the
enumerations their operands and selectors use. -/
namespace Sys2Proof

/-- The three message lanes `m[0]`, `m[1]`, `m[2]` (42_frame_sync R175). -/
inductive Lane where
  | k0 | k1 | k2
  deriving DecidableEq, Repr

/-- The three receiver dialects (30_encoding R94). -/
inductive Dialect where
  | s2   -- SARSAT-SARP-2
  | s3   -- SARSAT-SARP-3
  | c2   -- COSPAS-SARP-2
  deriving DecidableEq, Repr

/-- The format class of a message (30_encoding R98). -/
inductive FormatClass where
  | short | long | housekeeping
  deriving DecidableEq, Repr

/-- The two lengths of a beacon payload (44_beacon_payload R230). -/
inductive PayloadLen where
  | len88 | len120
  deriving DecidableEq, Repr

/-- The five formats the block decodes (30_encoding R90). -/
inductive Format where
  | cmd | pair | frame | msg | payload
  deriving DecidableEq, Repr

/-- One constructor per row of the opcode table, in the table's order. The first six are the host commands; the
others are the decode operations the block's own data select. An operation of the MSG and PAYLOAD formats names the
lane whose copy of the decoder performs it. -/
inductive Instr where
  | nop
  | sym (l b : Bool)
  | setdialect (dd : BitVec 2)
  | setinv (v : Bool)
  | ack (c b a : Bool)
  | srst
  | pair01
  | pair10
  | pair00
  | pair11
  | syncMatch
  | syncMiss
  | msgWords (k : Lane)
  | fmtHk (k : Lane)
  | fmtShort (k : Lane)
  | fmtLong (k : Lane)
  | chkS2Short (k : Lane)
  | chkS2Long (k : Lane)
  | chkS3Short (k : Lane)
  | chkS3Long (k : Lane)
  | chkC2Short (k : Lane)
  | chkC2Long (k : Lane)
  | w0Level (k : Lane)
  | w0Rt (k : Lane)
  | w0Latest (k : Lane)
  | w0S2Dru (k : Lane)
  | w0S2Pseudo (k : Lane)
  | w0S3Type (k : Lane)
  | w0S3Serial (k : Lane)
  | w0C2 (k : Lane)
  | tcSarsat (k : Lane)
  | tcC2 (k : Lane)
  | payShortS2 (k : Lane)
  | payShortS3 (k : Lane)
  | payShortC2 (k : Lane)
  | payLongS2 (k : Lane)
  | payLongS3 (k : Lane)
  | payLongC2 (k : Lane)
  | dopShort (k : Lane)
  | dopLong (k : Lane)
  | bcnHdr (k : Lane)
  | bcnCountry (k : Lane)
  | bcnBch1 (k : Lane)
  | bcnBch2 (k : Lane)
  | protoStdnat (k : Lane)
  | protoUser0 (k : Lane)
  | protoUser1 (k : Lane)
  | protoUser2 (k : Lane)
  | protoUser3 (k : Lane)
  | protoUser4 (k : Lane)
  | protoUser5 (k : Lane)
  | protoUser6 (k : Lane)
  | protoUser7 (k : Lane)
  | bcnPos (k : Lane)
  deriving DecidableEq, Repr

/-- The format column of the opcode table. -/
def Instr.format : Instr → Format
  | .nop => .cmd
  | .sym _ _ => .cmd
  | .setdialect _ => .cmd
  | .setinv _ => .cmd
  | .ack _ _ _ => .cmd
  | .srst => .cmd
  | .pair01 => .pair
  | .pair10 => .pair
  | .pair00 => .pair
  | .pair11 => .pair
  | .syncMatch => .frame
  | .syncMiss => .frame
  | .msgWords _ => .msg
  | .fmtHk _ => .msg
  | .fmtShort _ => .msg
  | .fmtLong _ => .msg
  | .chkS2Short _ => .msg
  | .chkS2Long _ => .msg
  | .chkS3Short _ => .msg
  | .chkS3Long _ => .msg
  | .chkC2Short _ => .msg
  | .chkC2Long _ => .msg
  | .w0Level _ => .msg
  | .w0Rt _ => .msg
  | .w0Latest _ => .msg
  | .w0S2Dru _ => .msg
  | .w0S2Pseudo _ => .msg
  | .w0S3Type _ => .msg
  | .w0S3Serial _ => .msg
  | .w0C2 _ => .msg
  | .tcSarsat _ => .msg
  | .tcC2 _ => .msg
  | .payShortS2 _ => .msg
  | .payShortS3 _ => .msg
  | .payShortC2 _ => .msg
  | .payLongS2 _ => .msg
  | .payLongS3 _ => .msg
  | .payLongC2 _ => .msg
  | .dopShort _ => .msg
  | .dopLong _ => .msg
  | .bcnHdr _ => .payload
  | .bcnCountry _ => .payload
  | .bcnBch1 _ => .payload
  | .bcnBch2 _ => .payload
  | .protoStdnat _ => .payload
  | .protoUser0 _ => .payload
  | .protoUser1 _ => .payload
  | .protoUser2 _ => .payload
  | .protoUser3 _ => .payload
  | .protoUser4 _ => .payload
  | .protoUser5 _ => .payload
  | .protoUser6 _ => .payload
  | .protoUser7 _ => .payload
  | .bcnPos _ => .payload

end Sys2Proof
end

