-- ==== Sys2Proof/Machine/State.lean ====
section
/-! DEFINITION. The state of the block: the nine items of 10_state R30, the input pins of R56 and the output ports of
R50 to R55, all as plain data; the reasons a step could stop; the state after reset. -/
namespace Sys2Proof.Machine

/-- The byte store behind the frame registers `B[0..74]`: (offset, byte) cells with strictly rising offsets below 75
and no cell equal to what an unlisted offset reads as (`Memory.wf`; assumption 4). -/
abbrev Memory := List Host.Cell

/-- The codes of STATUS.RESULT that are ever held (10_state R41, R42); 5, 6 and 7 have no term (assumption 5). -/
inductive Result where
  | none           -- 0: no block has completed since reset
  | syncOk         -- 1
  | syncFail       -- 2
  | lineViolation  -- 3
  | lengthError    -- 4
  deriving DecidableEq, Repr

/-- The nine items of state (10_state R30), with CFG and STATUS held field by field. -/
structure Regs where
  /-- FRAME, the held frame `B[0..74]` (R31). -/
  frame   : Memory
  /-- WBUF, the working buffer; bit j of the spec is the j-th from the most significant (R33). -/
  wbuf    : FrameBits
  /-- SYMCNT, the symbol counter (R34). -/
  symcnt  : BitVec 11
  /-- HOLD, the first symbol of the pair being received (R36). -/
  hold    : Bool
  /-- INV_ACT, the inversion in force for the current block (R37). -/
  invAct  : Bool
  /-- VIOL_ACT, a violation was seen in the current block (R38). -/
  violAct : Bool
  /-- CFG.DIALECT (R40). -/
  dialect : Dialect
  /-- CFG.INV (R40). -/
  inv     : Bool
  /-- STATUS.RESULT (R41). -/
  result  : Result
  /-- STATUS.NEW (R41). -/
  newFlag : Bool
  /-- STATUS.OVR (R41). -/
  ovr     : Bool
  /-- STATUS.CMDERR (R41). -/
  cmderr  : Bool
  /-- TSTAMP (R43). -/
  tstamp  : Timestamp
  deriving DecidableEq, Repr

/-- The values on the input pins in one clock cycle (10_state R56; `clk` itself is the step). -/
structure Pins where
  rst      : Bool
  cmdValid : Bool
  cmd      : Byte
  now      : Timestamp
  deriving DecidableEq, Repr

/-- `level` and `level_cdbm` (10_state R53, 43_message_fields R193); `levelCdbm` is signed. -/
structure LevelOut where
  level     : BitVec 6
  levelCdbm : BitVec 16
  deriving DecidableEq, Repr

/-- `serial` and `serial_ddb` (43_message_fields R199). -/
structure SerialOut where
  serial    : BitVec 3
  serialDdb : BitVec 10
  deriving DecidableEq, Repr

/-- `timecode`, `tc_parity_bit`, `tc_parity_valid` (43_message_fields R202). -/
structure TimecodeOut where
  timecode    : BitVec 23
  parityBit   : Bool
  parityValid : Bool
  deriving DecidableEq, Repr

/-- `payload_len` and `payload` (43_message_fields R206). -/
structure PayloadOut where
  len  : BitVec 7
  bits : PayloadBits
  deriving DecidableEq, Repr

/-- `doppler` (two's complement), `dop_parity_bit`, `dop_parity_valid`, `abs_freq_mhz`
(43_message_fields R216 to R218). -/
structure DopplerOut where
  doppler     : BitVec 23
  parityBit   : Bool
  parityValid : Bool
  absFreqMhz  : BitVec 40
  deriving DecidableEq, Repr

/-- The nine position outputs of a 120-bit beacon (44_beacon_payload R247 to R254). -/
structure PositionOut where
  source  : Bool
  latFlag : Bool
  latDeg  : BitVec 7
  latMin4 : BitVec 4
  latMin  : BitVec 6
  lonFlag : Bool
  lonDeg  : BitVec 8
  lonMin4 : BitVec 4
  lonMin  : BitVec 6
  deriving DecidableEq, Repr

/-- One character of `callsign` with its `callsign_miss` flag (44_beacon_payload R244, R246). -/
structure CallChar where
  code : Byte
  miss : Bool
  deriving DecidableEq, Repr

/-- `callsign[0..3]` and `callsign_miss[0..3]`. -/
structure CallsignOut where
  c0 : CallChar
  c1 : CallChar
  c2 : CallChar
  c3 : CallChar
  deriving DecidableEq, Repr

/-- The beacon record `m[k].bcn` (10_state R54). -/
structure BcnOut where
  ts           : Timestamp
  len          : BitVec 7
  /-- `type`: false SHORT (88 bits), true LONG (120 bits). -/
  long         : Bool
  raw          : PayloadBits
  formatFlag   : Bool
  protocolFlag : Bool
  countryCode  : BitVec 10
  countryKnown : Bool
  countryEntry : Option Config.CountryEntry
  bch1         : BitVec 21
  bch2         : Option (BitVec 12)
  /-- `protocol`: false STANDARD_NATIONAL, true USER. -/
  user         : Bool
  protocolNum  : Option (BitVec 3)
  idKind       : BitVec 3
  idValue      : Option (BitVec 46)
  callsign     : Option CallsignOut
  pos          : Option PositionOut
  deriving DecidableEq, Repr

/-- `word[0..7]` of a lane record (43_message_fields R181). -/
structure WordsOut where
  w0 : Word24
  w1 : Word24
  w2 : Word24
  w3 : Word24
  w4 : Word24
  w5 : Word24
  w6 : Word24
  w7 : Word24
  deriving DecidableEq, Repr

/-- The lane record `m[k]` (10_state R53). Outputs the spec makes present together stand in one optional group. -/
structure LaneOut where
  raw         : MsgBits
  ts          : Timestamp
  dialect     : BitVec 2
  words       : WordsOut
  format      : BitVec 2
  fmtChecked  : Bool
  fmtValid    : Bool
  unsupported : Bool
  w0Supported : Bool
  level       : Option LevelOut
  rt          : Option Bool
  latest      : Option Bool
  dru         : Option (BitVec 2)
  pseudo      : Option Bool
  /-- `type` of SARSAT-SARP-3: true "C/S T.001", false "new type". -/
  csType      : Option Bool
  serial      : Option SerialOut
  tcSupported : Bool
  timecode    : Option TimecodeOut
  payload     : Option PayloadOut
  doppler     : Option DopplerOut
  bcn         : Option BcnOut
  deriving DecidableEq, Repr

/-- The output record (10_state R50 to R53). -/
structure Output where
  irq          : Bool
  status       : BitVec 6
  cfg          : BitVec 3
  framePresent : Bool
  frameValid   : Bool
  frameTs      : Timestamp
  frameLen     : BitVec 7
  frameDialect : BitVec 2
  frameBytes   : FrameBits
  nMsgs        : BitVec 2
  lane0        : Option LaneOut
  lane1        : Option LaneOut
  lane2        : Option LaneOut
  deriving DecidableEq, Repr

/-- The whole of what a step reads and writes. `regs` is the spec's state (10_state R30). `pins` are the input pins in
the current cycle, the place a step fetches its command from, and `script` the cycles the host will present after it
(assumption 2). `out` are the values on the output ports: wires, driven anew from `regs` by every step
(R50; assumption 1). -/
structure State where
  regs   : Regs
  pins   : Pins
  script : List Pins
  out    : Output
  deriving DecidableEq, Repr

/-- The reasons a step stops the machine: there are none. "There is no outcome that stops the block" (60_exceptions
R270); the step function is total, with no fault (00_scope R20); every address is in range (20_memory R83). -/
inductive Fault where
  deriving DecidableEq, Repr

/-- The reasons an instruction has no meaning. -/
inductive Refusal where
  /-- Raised only by an arm of `exec` whose instruction is not modelled yet; no arm raises it now. Safe: the model
  stops where the hardware goes on. -/
  | notModelled (mnemonic : String)
  deriving DecidableEq, Repr

/-- Every bit of state zero (10_state R48, 70_reset_and_hazards R300). -/
def Regs.reset : Regs where
  frame   := []
  wbuf    := 0
  symcnt  := 0
  hold    := false
  invAct  := false
  violAct := false
  dialect := .s2
  inv     := false
  result  := .none
  newFlag := false
  ovr     := false
  cmderr  := false
  tstamp  := 0

/-- A cycle in which the host presents nothing (`cmd_valid = 0`). -/
def Pins.idle : Pins where
  rst      := false
  cmdValid := false
  cmd      := 0
  now      := 0

/-- The outputs in the reset state (70_reset_and_hazards R301). -/
def Output.reset : Output where
  irq          := false
  status       := 0
  cfg          := 0
  framePresent := false
  frameValid   := false
  frameTs      := 0
  frameLen     := 0
  frameDialect := 0
  frameBytes   := 0
  nMsgs        := 0
  lane0        := .none
  lane1        := .none
  lane2        := .none

/-- The machine right after reset (70_reset_and_hazards R300, R301): the block waits for commands. The host's side
(`pins`, `script`) presents nothing (assumption 2, DESIGN CHOICE). -/
def State.reset : State where
  regs   := Regs.reset
  pins   := Pins.idle
  script := []
  out    := Output.reset

end Sys2Proof.Machine
end

