-- ==== Sys2Proof/Machine/Operands.lean ====
section
/-! DEFINITION. Operand forms: bit fields, enumeration codes, message words, format classification, payload
extraction, table reads, and the value each field operation computes from the bits it reads. Positions are in the
spec's numbering: index 0 is the first and most significant bit (00_scope R9). -/
namespace Sys2Proof

/-! ## Bit fields -/

/-- `s[a : a+w)`, w bits from index a (00_scope R10, R12); its `toNat` is `uint` (R11). -/
def bits {n : Nat} (s : BitVec n) (a w : Nat) : BitVec w := s.extractLsb' (n - a - w) w

/-- `s[i]` (00_scope R9). -/
def bitAt {n : Nat} (s : BitVec n) (i : Nat) : Bool := s.getMsbD i

/-- `popcount(s)` (00_scope R13). -/
def popcount {n : Nat} (s : BitVec n) : Nat := (List.range n).countP fun i => bitAt s i

/-! ## Enumeration codes -/

/-- The dialect codes (30_encoding R94). -/
def Dialect.code : Dialect → BitVec 2
  | .s2 => 0
  | .s3 => 1
  | .c2 => 2

/-- The dialect a code names; 3 is reserved (30_encoding R94). -/
def Dialect.ofCode (dd : BitVec 2) : Option Dialect :=
  if dd = 0 then some .s2 else if dd = 1 then some .s3 else if dd = 2 then some .c2 else none

/-- SARSAT-SARP-2 or SARSAT-SARP-3: the dialects with a word0 and word1 layout (30_encoding R104 to R107). -/
def Dialect.isSarsat : Dialect → Bool
  | .s2 => true
  | .s3 => true
  | .c2 => false

/-- The format class codes (30_encoding R98). -/
def FormatClass.code : FormatClass → BitVec 2
  | .short => 0
  | .long => 1
  | .housekeeping => 2

/-- The codes of STATUS.RESULT (10_state R41). -/
def Machine.Result.code : Machine.Result → BitVec 3
  | .none => 0
  | .syncOk => 1
  | .syncFail => 2
  | .lineViolation => 3
  | .lengthError => 4

/-- `payload_len` and `len`: 88 or 120 (44_beacon_payload R230). -/
def PayloadLen.code : PayloadLen → BitVec 7
  | .len88 => 88
  | .len120 => 120

/-! ## Addresses -/

/-- The frame bit address of a lane's message: 0, 192 or 384 (20_memory R62). -/
def Lane.base : Lane → Nat
  | .k0 => 0
  | .k1 => 192
  | .k2 => 384

/-! ## Words and classification -/

/-- Word j of a message, its bits [24j, 24j+24) (20_memory R63, R70). -/
def wordOf (M : MsgBits) (j : Nat) : Word24 := bits M (24 * j) 24

/-- The eight words (43_message_fields R181). -/
def wordsOf (M : MsgBits) : Machine.WordsOut where
  w0 := wordOf M 0
  w1 := wordOf M 1
  w2 := wordOf M 2
  w3 := wordOf M 3
  w4 := wordOf M 4
  w5 := wordOf M 5
  w6 := wordOf M 6
  w7 := wordOf M 7

/-- The format class: word2 is tested before word7 (43_message_fields R182 to R185). -/
def classify (M : MsgBits) : FormatClass :=
  if wordOf M 2 = Config.HK_WORD2 then .housekeeping
  else if wordOf M 7 = Config.SHORT_WORD7 then .short
  else .long

/-- The check bit of SARSAT-SARP-2: `w0[15]` (43_message_fields R187, R188). -/
def checkBitS2 (M : MsgBits) : Bool := bitAt (wordOf M 0) 15
/-- The check bit of SARSAT-SARP-3: `w2[0]` (43_message_fields R189, R190). -/
def checkBitS3 (M : MsgBits) : Bool := bitAt (wordOf M 2) 0
/-- The check bit of COSPAS-SARP-2: `w3[0]` (43_message_fields R191, R192). -/
def checkBitC2 (M : MsgBits) : Bool := bitAt (wordOf M 3) 0

/-- The dialect's check bit (43_message_fields R186). -/
def checkBit (d : Dialect) (M : MsgBits) : Bool :=
  match d with
  | .s2 => checkBitS2 M
  | .s3 => checkBitS3 M
  | .c2 => checkBitC2 M

/-- `fmt_checked`: the check is skipped for HOUSEKEEPING (43_message_fields R186). -/
def fmtCheckedOf (M : MsgBits) : Bool := classify M != .housekeeping

/-- `fmt_valid`: 0 for HOUSEKEEPING, else whether the check bit is 0 for SHORT and 1 for LONG
(43_message_fields R186). -/
def fmtValidOf (d : Dialect) (M : MsgBits) : Bool :=
  match classify M with
  | .housekeeping => false
  | .short => checkBit d M == false
  | .long => checkBit d M == true

/-! ## word0 and timecode fields -/

/-- `level = uint(w0[18:24))`, `level_cdbm = 55*level - 14000` (43_message_fields R193). -/
def levelOf (w0 : Word24) : Machine.LevelOut :=
  let lv := bits w0 18 6
  { level := lv, levelCdbm := BitVec.ofInt 16 (55 * (lv.toNat : Int) - 14000) }

/-- `LEVEL_ROM`, tenths of a decibel (20_memory R72). -/
def levelRom (a : BitVec 3) : BitVec 10 :=
  match a.toNat with
  | 0 => 323
  | 1 => 348
  | 2 => 375
  | 3 => 411
  | 4 => 452
  | 5 => 501
  | 6 => 555
  | _ => 621

/-- `serial = uint(w0[12:15))` and its entry of `LEVEL_ROM` (43_message_fields R199). -/
def serialOf (w0 : Word24) : Machine.SerialOut :=
  { serial := bits w0 12 3, serialDdb := levelRom (bits w0 12 3) }

/-- `ParityOK(w)`: `popcount(w[0:23)) mod 2 = w[23]` (43_message_fields R205). -/
def parityOk (w : Word24) : Bool := popcount (bits w 0 23) % 2 == (if bitAt w 23 then 1 else 0)

/-- The timecode outputs of word1 (43_message_fields R202). -/
def timecodeOf (w1 : Word24) : Machine.TimecodeOut :=
  { timecode := bits w1 0 23, parityBit := bitAt w1 23, parityValid := parityOk w1 }

/-! ## Payload -/

/-- A SHORT payload: the prefix bit 0, then 87 message bits from `start`, left-aligned in 120 bits
(43_message_fields R206). -/
def payShort (start : Nat) (M : MsgBits) : PayloadBits :=
  0#1 ++ bits M start Config.SHORT_EXTRACT_BITS ++ 0#32

/-- A LONG payload: the prefix bit 1, then 119 message bits from `start` (43_message_fields R206). -/
def payLong (start : Nat) (M : MsgBits) : PayloadBits :=
  1#1 ++ bits M start Config.LONG_EXTRACT_BITS

/-- The first message bit of the payload range, by dialect (43_message_fields R206). -/
def payStart : Dialect → Nat
  | .s2 => 48
  | .s3 => 49
  | .c2 => 72

/-- The payload a message has under a dialect: absent unless `fmt_valid` (43_message_fields R206). -/
def payloadOf (d : Dialect) (M : MsgBits) : Option (PayloadLen × PayloadBits) :=
  if fmtValidOf d M then
    match classify M with
    | .housekeeping => none
    | .short => some (.len88, payShort (payStart d) M)
    | .long => some (.len120, payLong (payStart d) M)
  else none

/-! ## Doppler -/

/-- The Doppler value of a word by the document's algorithm: sign bit 0, 22 bits [1:23); when the sign is set,
-(uint of the inverted bits + 1) (43_message_fields R216). -/
def dopplerValue (D : Word24) : Int :=
  if bitAt D 0 then -(((~~~ bits D 1 22).toNat : Int) + 1) else ((bits D 1 22).toNat : Int)

/-- The Doppler outputs of a word (43_message_fields R216, R217, R218). -/
def dopplerOf (D : Word24) : Machine.DopplerOut where
  doppler     := BitVec.ofInt 23 (dopplerValue D)
  parityBit   := bitAt D 23
  parityValid := parityOk D
  absFreqMhz  := BitVec.ofInt 40 (Config.F0_MILLIHZ + Config.DOP_STEP_MILLIHZ * dopplerValue D)

/-! ## Beacon fields -/

/-- `P[1]` (44_beacon_payload R231). -/
def protocolFlagOf (P : PayloadBits) : Bool := bitAt P 1

/-- `uint(P[11:14))` (44_beacon_payload R237). -/
def protocolNumOf (P : PayloadBits) : BitVec 3 := bits P 11 3

/-- `uint(P[2:12))` (44_beacon_payload R232). -/
def countryCodeOf (P : PayloadBits) : BitVec 10 := bits P 2 10

/-- `RomRead(COUNTRY_ROM, a)` (20_memory R73). -/
def countryRom (a : BitVec 10) : Option Config.CountryEntry := Config.countryRom a

/-- `RomRead(BAUDOT_ROM, g)`: entry 56 is "A", the other entries are open (20_memory R74). -/
def baudotRom (g : BitVec 6) : Option Byte :=
  if g = 56 then some 0x41 else (Config.baudotOpen g).map (·.val)

/-- `BaudotChar(g)`: a group without an entry gives "*" and the miss flag (44_beacon_payload R246). -/
def baudotChar (g : BitVec 6) : Machine.CallChar :=
  match baudotRom g with
  | some c => { code := c, miss := false }
  | none => { code := 0x2A, miss := true }

/-- The four call-sign groups `P[15:21)`, `P[21:27)`, `P[27:33)`, `P[33:39)` (44_beacon_payload R244). -/
def callsignOf (P : PayloadBits) : Machine.CallsignOut where
  c0 := baudotChar (bits P 15 6)
  c1 := baudotChar (bits P 21 6)
  c2 := baudotChar (bits P 27 6)
  c3 := baudotChar (bits P 33 6)

/-- `PROTO_ROM`: the class names, for the reader; the block outputs the number (20_memory R71, R237). -/
def protoRom (a : BitVec 3) : String :=
  match a.toNat with
  | 0 => "Orbitography"
  | 1 => "Aviation/ELT"
  | 2 => "Marine/EPIRB"
  | 3 => "Serial"
  | 4 => "National"
  | 5 => "2nd-Generation"
  | 6 => "EPIRB-with-radio-callsign"
  | _ => "Test"

/-- Whole minutes of a count of four-minute steps: `4 * raw`, 6 bits (44_beacon_payload R251, R254). -/
def minutesOf (raw : BitVec 4) : BitVec 6 := BitVec.ofNat 6 (4 * raw.toNat)

/-- The position outputs of a 120-bit payload; bit 95 is read twice (44_beacon_payload R248 to R254). -/
def positionOf (P : PayloadBits) : Machine.PositionOut where
  source  := bitAt P 82
  latFlag := bitAt P 83
  latDeg  := bits P 84 7
  latMin4 := bits P 91 4
  latMin  := minutesOf (bits P 91 4)
  lonFlag := bitAt P 95
  lonDeg  := bits P 95 8
  lonMin4 := bits P 103 4
  lonMin  := minutesOf (bits P 103 4)

/-- The identification of protocol 0: `P[15:61)`, 46 bits (44_beacon_payload R238). -/
def id46 (P : PayloadBits) : BitVec 46 := bits P 15 46
/-- The identification of protocols 1 and 2: `P[15:57)`, zero-extended to 46 bits (44_beacon_payload R239, R240). -/
def id42 (P : PayloadBits) : BitVec 46 := (bits P 15 42).setWidth 46
/-- The identification of protocol 3: `P[19:49)`, zero-extended to 46 bits (44_beacon_payload R241). -/
def id30 (P : PayloadBits) : BitVec 46 := (bits P 19 30).setWidth 46

end Sys2Proof
end

