-- ==== Sys2Proof/Machine/Flags.lean ====
section
/-! DEFINITION. The flags and status computations: the sync predicate, the packed registers STATUS and CFG, the
presence flags of the frame, and what a block end does to NEW and OVR. -/
namespace Sys2Proof.Machine

/-- Byte i of a 600-bit frame: bits [8i, 8i+8) (00_scope R14). -/
def frameByte (f : FrameBits) (i : Nat) : Byte := bits f (8 * i) 8

/-- `SyncMatch(f)`: the marker byte at offsets 0, 24, 48 and the sync word at 72 (42_frame_sync R171). -/
def syncMatch (f : FrameBits) : Bool :=
  frameByte f 0 == Config.MARKER && frameByte f 24 == Config.MARKER && frameByte f 48 == Config.MARKER &&
    bits f 576 24 == Config.SYNC

/-- The outcome of a good block: SYNC_OK or SYNC_FAIL (41_manchester R158). -/
def syncResult (f : FrameBits) : Result := if syncMatch f then .syncOk else .syncFail

/-- `frame_present`: RESULT is SYNC_OK or SYNC_FAIL (10_state R52). -/
def Regs.framePresent (r : Regs) : Bool := r.result == .syncOk || r.result == .syncFail

/-- `frame_valid`: RESULT is SYNC_OK (10_state R52). -/
def Regs.frameValid (r : Regs) : Bool := r.result == .syncOk

/-- One bit of a register. -/
def flagBit (b : Bool) : BitVec 1 := BitVec.ofBool b

/-- The STATUS register: RESULT in bits 5:3, NEW 2, OVR 1, CMDERR 0 (10_state R41). -/
def Regs.statusWord (r : Regs) : BitVec 6 :=
  r.result.code ++ flagBit r.newFlag ++ flagBit r.ovr ++ flagBit r.cmderr

/-- The CFG register: DIALECT in bits 2:1, INV 0 (10_state R40). -/
def Regs.cfgWord (r : Regs) : BitVec 3 := r.dialect.code ++ flagBit r.inv

/-- `irq` is STATUS.NEW (60_exceptions R280). -/
def Regs.irq (r : Regs) : Bool := r.newFlag

/-- OVR after a block end: sticky, set when NEW was still 1 (41_manchester R162). -/
def ovrAfterBlockEnd (r : Regs) : Bool := r.ovr || r.newFlag

/-- A flag after ACK with its mask bit: cleared when the bit is 1 (40_host_commands R135). -/
def ackedFlag (mask flag : Bool) : Bool := if mask then false else flag

end Sys2Proof.Machine
end

