-- ==== Sys2Proof/WellFormed.lean ====
section
/-! DEFINITION. Which terms of `Instr` an encoding of the spec stands for. The one check is SETDIALECT's: dialect
code 3 is reserved and its byte 0x23 is illegal (30_encoding R92, R94, R97). Every other operand fills its field. -/
namespace Sys2Proof

/-- The dialect code of SETDIALECT is one of 0, 1, 2 (40_host_commands R133). -/
def dialectCodeLegal (dd : BitVec 2) : Bool := dd != 3

/-- An instruction that some encoding of the spec stands for. -/
def Instr.wellFormed : Instr → Bool
  | .setdialect dd => dialectCodeLegal dd
  | .nop => true
  | .sym _ _ => true
  | .setinv _ => true
  | .ack _ _ _ => true
  | .srst => true
  | .pair01 => true
  | .pair10 => true
  | .pair00 => true
  | .pair11 => true
  | .syncMatch => true
  | .syncMiss => true
  | .msgWords _ => true
  | .fmtHk _ => true
  | .fmtShort _ => true
  | .fmtLong _ => true
  | .chkS2Short _ => true
  | .chkS2Long _ => true
  | .chkS3Short _ => true
  | .chkS3Long _ => true
  | .chkC2Short _ => true
  | .chkC2Long _ => true
  | .w0Level _ => true
  | .w0Rt _ => true
  | .w0Latest _ => true
  | .w0S2Dru _ => true
  | .w0S2Pseudo _ => true
  | .w0S3Type _ => true
  | .w0S3Serial _ => true
  | .w0C2 _ => true
  | .tcSarsat _ => true
  | .tcC2 _ => true
  | .payShortS2 _ => true
  | .payShortS3 _ => true
  | .payShortC2 _ => true
  | .payLongS2 _ => true
  | .payLongS3 _ => true
  | .payLongC2 _ => true
  | .dopShort _ => true
  | .dopLong _ => true
  | .bcnHdr _ => true
  | .bcnCountry _ => true
  | .bcnBch1 _ => true
  | .bcnBch2 _ => true
  | .protoStdnat _ => true
  | .protoUser0 _ => true
  | .protoUser1 _ => true
  | .protoUser2 _ => true
  | .protoUser3 _ => true
  | .protoUser4 _ => true
  | .protoUser5 _ => true
  | .protoUser6 _ => true
  | .protoUser7 _ => true
  | .bcnPos _ => true

end Sys2Proof
end

