-- ==== Sys2Proof/Decode.lean ====
section
/-! DEFINITION. Decoding and encoding. A command byte names one instruction or is illegal by a named reason. A symbol
pair and a frame select one operation; a message or a payload selects a list of operations, in the order of the
spec's steps, by its own bits, its lane, its dialect and its length (30_encoding R90, R92, R101, R102, R109 to R113). -/
namespace Sys2Proof

/-! ## The command byte -/

/-- Why a command byte is illegal (30_encoding R97). -/
inductive CmdReject where
  /-- `op` is 6 to 15. -/
  | reservedOp (op : BitVec 4)
  /-- A bit of `arg` that must be 0 is 1. -/
  | reservedArg (op arg : BitVec 4)
  /-- SETDIALECT with the reserved dialect code 3, the byte 0x23. -/
  | reservedDialect
  deriving DecidableEq, Repr

/-- What a command byte decodes to. -/
inductive Decoded where
  | instr (i : Instr)
  | illegal (why : CmdReject)
  deriving DecidableEq, Repr

/-- The command map (30_encoding R92): `op` is bits 7:4, `arg` bits 3:0 in conventional numbering. -/
def decodeCmd (c : Byte) : Decoded :=
  let op := c.extractLsb' 4 4
  let arg := c.extractLsb' 0 4
  if op = 0 then
    if arg = 0 then .instr .nop else .illegal (.reservedArg op arg)
  else if op = 1 then
    if c.extractLsb' 2 2 = 0 then .instr (.sym (c.getLsbD 1) (c.getLsbD 0)) else .illegal (.reservedArg op arg)
  else if op = 2 then
    if c.extractLsb' 2 2 = 0 then
      if c.extractLsb' 0 2 = 3 then .illegal .reservedDialect else .instr (.setdialect (c.extractLsb' 0 2))
    else .illegal (.reservedArg op arg)
  else if op = 3 then
    if c.extractLsb' 1 3 = 0 then .instr (.setinv (c.getLsbD 0)) else .illegal (.reservedArg op arg)
  else if op = 4 then
    if c.getLsbD 3 then .illegal (.reservedArg op arg)
    else .instr (.ack (c.getLsbD 2) (c.getLsbD 1) (c.getLsbD 0))
  else if op = 5 then
    if arg = 0 then .instr .srst else .illegal (.reservedArg op arg)
  else .illegal (.reservedOp op)

/-! ## The operations the data select -/

/-- A pair `(a, b)`, `a` first (30_encoding R101). -/
def decodePair (a b : Bool) : Instr :=
  match a, b with
  | false, true => .pair01
  | true, false => .pair10
  | false, false => .pair00
  | true, true => .pair11

/-- The frame pattern (30_encoding R102). -/
def decodeFrame (f : FrameBits) : Instr := if Machine.syncMatch f then .syncMatch else .syncMiss

/-- The classification operation (30_encoding R109). -/
def fmtOp (k : Lane) : FormatClass → Instr
  | .housekeeping => .fmtHk k
  | .short => .fmtShort k
  | .long => .fmtLong k

/-- The format check: none for HOUSEKEEPING (30_encoding R110). -/
def chkOps (k : Lane) : Dialect → FormatClass → List Instr
  | _, .housekeeping => []
  | .s2, .short => [.chkS2Short k]
  | .s2, .long => [.chkS2Long k]
  | .s3, .short => [.chkS3Short k]
  | .s3, .long => [.chkS3Long k]
  | .c2, .short => [.chkC2Short k]
  | .c2, .long => [.chkC2Long k]

/-- The word0 operations, for every message of the dialect (43_message_fields R201). -/
def w0Ops (k : Lane) : Dialect → List Instr
  | .s2 => [.w0Level k, .w0Rt k, .w0Latest k, .w0S2Dru k, .w0S2Pseudo k]
  | .s3 => [.w0Level k, .w0Rt k, .w0Latest k, .w0S3Type k, .w0S3Serial k]
  | .c2 => [.w0C2 k]

/-- The timecode operation (43_message_fields R202, R204). -/
def tcOp (k : Lane) : Dialect → Instr
  | .s2 => .tcSarsat k
  | .s3 => .tcSarsat k
  | .c2 => .tcC2 k

/-- The payload extraction and the Doppler operation of a format-valid message (30_encoding R111). -/
def payOps (k : Lane) : Dialect → FormatClass → List Instr
  | _, .housekeeping => []
  | .s2, .short => [.payShortS2 k, .dopShort k]
  | .s3, .short => [.payShortS3 k, .dopShort k]
  | .c2, .short => [.payShortC2 k, .dopShort k]
  | .s2, .long => [.payLongS2 k, .dopLong k]
  | .s3, .long => [.payLongS3 k, .dopLong k]
  | .c2, .long => [.payLongC2 k, .dopLong k]

/-- The message operations a lane's 192 bits select under a dialect, in the order of 43_message_fields' steps. -/
def decodeMsg (k : Lane) (d : Dialect) (M : MsgBits) : List Instr :=
  [.msgWords k, fmtOp k (classify M)] ++ chkOps k d (classify M) ++ w0Ops k d ++ [tcOp k d] ++
    (if fmtValidOf d M then payOps k d (classify M) else [])

/-- The protocol operation of a payload (30_encoding R113). -/
def protoOp (k : Lane) (P : PayloadBits) : Instr :=
  if protocolFlagOf P then
    match (protocolNumOf P).toNat with
    | 0 => .protoUser0 k
    | 1 => .protoUser1 k
    | 2 => .protoUser2 k
    | 3 => .protoUser3 k
    | 4 => .protoUser4 k
    | 5 => .protoUser5 k
    | 6 => .protoUser6 k
    | _ => .protoUser7 k
  else .protoStdnat k

/-- The beacon operations a payload selects, in the order of 44_beacon_payload's steps. -/
def decodePayload (k : Lane) (len : PayloadLen) (P : PayloadBits) : List Instr :=
  [.bcnHdr k, .bcnCountry k, .bcnBch1 k] ++ (if len = .len120 then [.bcnBch2 k] else []) ++ [protoOp k P] ++
    (if len = .len120 then [.bcnPos k] else [])

/-! ## Encoded operations -/

/-- A word of one of the five formats, with what outside the word's own bits decides the selection: the lane, the
dialect, the payload's length (the opcode table's `when`). -/
inductive Coded where
  | cmd (c : Byte)
  | pair (p : BitVec 2)
  | frame (f : FrameBits)
  | msg (k : Lane) (d : Dialect) (M : MsgBits)
  | payload (k : Lane) (len : PayloadLen) (P : PayloadBits)
  deriving DecidableEq, Repr

/-- The operations a word selects. -/
def decodeAll : Coded → List Instr
  | .cmd c =>
    match decodeCmd c with
    | .instr i => [i]
    | .illegal _ => []
  | .pair p => [decodePair (bitAt p 0) (bitAt p 1)]
  | .frame f => [decodeFrame f]
  | .msg k d M => decodeMsg k d M
  | .payload k len P => decodePayload k len P

/-- The mask and match columns of the opcode table, as numbers of the format's full width (for a command or a pair,
the fixed bits of its pattern). -/
def Instr.row : Instr → Nat × Nat
  | .nop => (0xff, 0)
  | .sym _ _ => (0xfc, 0x10)
  | .setdialect _ => (0xfc, 0x20)
  | .setinv _ => (0xfe, 0x30)
  | .ack _ _ _ => (0xf8, 0x40)
  | .srst => (0xff, 0x50)
  | .pair01 => (0x3, 0x1)
  | .pair10 => (0x3, 0x2)
  | .pair00 => (0x3, 0)
  | .pair11 => (0x3, 0x3)
  | .syncMatch => (0xff0000000000000000000000000000000000000000000000ff0000000000000000000000000000000000000000000000ff0000000000000000000000000000000000000000000000ffffff, 0xd60000000000000000000000000000000000000000000000d60000000000000000000000000000000000000000000000d6000000000000000000000000000000000000000000000042bb1f)
  | .syncMiss => (0, 0)
  | .msgWords _ => (0, 0)
  | .fmtHk _ => (0xffffff000000000000000000000000000000, 0xce3e00000000000000000000000000000000)
  | .fmtShort _ => (0xffffff, 0x1)
  | .fmtLong _ => (0, 0)
  | .chkS2Short _ => (0x100000000000000000000000000000000000000000000, 0)
  | .chkS2Long _ => (0x100000000000000000000000000000000000000000000, 0x100000000000000000000000000000000000000000000)
  | .chkS3Short _ => (0x800000000000000000000000000000000000, 0)
  | .chkS3Long _ => (0x800000000000000000000000000000000000, 0x800000000000000000000000000000000000)
  | .chkC2Short _ => (0x800000000000000000000000000000, 0)
  | .chkC2Long _ => (0x800000000000000000000000000000, 0x800000000000000000000000000000)
  | .w0Level _ => (0, 0)
  | .w0Rt _ => (0, 0)
  | .w0Latest _ => (0, 0)
  | .w0S2Dru _ => (0, 0)
  | .w0S2Pseudo _ => (0, 0)
  | .w0S3Type _ => (0, 0)
  | .w0S3Serial _ => (0, 0)
  | .w0C2 _ => (0, 0)
  | .tcSarsat _ => (0, 0)
  | .tcC2 _ => (0, 0)
  | .payShortS2 _ => (0, 0)
  | .payShortS3 _ => (0, 0)
  | .payShortC2 _ => (0, 0)
  | .payLongS2 _ => (0, 0)
  | .payLongS3 _ => (0, 0)
  | .payLongC2 _ => (0, 0)
  | .dopShort _ => (0, 0)
  | .dopLong _ => (0, 0)
  | .bcnHdr _ => (0, 0)
  | .bcnCountry _ => (0, 0)
  | .bcnBch1 _ => (0, 0)
  | .bcnBch2 _ => (0, 0)
  | .protoStdnat _ => (0x400000000000000000000000000000, 0)
  | .protoUser0 _ => (0x401c00000000000000000000000000, 0x400000000000000000000000000000)
  | .protoUser1 _ => (0x401c00000000000000000000000000, 0x400400000000000000000000000000)
  | .protoUser2 _ => (0x401c00000000000000000000000000, 0x400800000000000000000000000000)
  | .protoUser3 _ => (0x401c00000000000000000000000000, 0x400c00000000000000000000000000)
  | .protoUser4 _ => (0x401c00000000000000000000000000, 0x401000000000000000000000000000)
  | .protoUser5 _ => (0x401c00000000000000000000000000, 0x401400000000000000000000000000)
  | .protoUser6 _ => (0x401c00000000000000000000000000, 0x401800000000000000000000000000)
  | .protoUser7 _ => (0x401c00000000000000000000000000, 0x401c00000000000000000000000000)
  | .bcnPos _ => (0, 0)
/-- The match column as a word of its format's width. -/
def Instr.rowWord (w : Nat) (i : Instr) : BitVec w := BitVec.ofNat w i.row.2

/-- A LONG message that is format-valid under a dialect: its check bit is set and nothing else. -/
def longMsg : Dialect → MsgBits
  | .s2 => Instr.rowWord 192 (.chkS2Long .k0)
  | .s3 => Instr.rowWord 192 (.chkS3Long .k0)
  | .c2 => Instr.rowWord 192 (.chkC2Long .k0)

/-- A SHORT message that is format-valid under every dialect: word7 is 1 and nothing else. -/
def shortMsg : MsgBits := Instr.rowWord 192 (.fmtShort .k0)

/-- The word of an instruction: the opcode table's match word with the operand fields filled in, completed by the
bits its `when` column asks for. -/
def encode : Instr → Coded
  | .nop => .cmd 0x00
  | .sym l b => .cmd (1#4 ++ 0#2 ++ BitVec.ofBool l ++ BitVec.ofBool b)
  | .setdialect dd => .cmd (2#4 ++ 0#2 ++ dd)
  | .setinv v => .cmd (3#4 ++ 0#3 ++ BitVec.ofBool v)
  | .ack c b a => .cmd (4#4 ++ 0#1 ++ BitVec.ofBool c ++ BitVec.ofBool b ++ BitVec.ofBool a)
  | .srst => .cmd 0x50
  | .pair01 => .pair 1
  | .pair10 => .pair 2
  | .pair00 => .pair 0
  | .pair11 => .pair 3
  | .syncMatch => .frame (Instr.rowWord 600 .syncMatch)
  | .syncMiss => .frame (Instr.rowWord 600 .syncMiss)
  | .msgWords k => .msg k .s2 (Instr.rowWord 192 (.msgWords k))
  | .fmtHk k => .msg k .s2 (Instr.rowWord 192 (.fmtHk k))
  | .fmtShort k => .msg k .s2 (Instr.rowWord 192 (.fmtShort k))
  | .fmtLong k => .msg k .s2 (Instr.rowWord 192 (.fmtLong k))
  | .chkS2Short k => .msg k .s2 (Instr.rowWord 192 (.chkS2Short k) ||| shortMsg)
  | .chkS2Long k => .msg k .s2 (Instr.rowWord 192 (.chkS2Long k))
  | .chkS3Short k => .msg k .s3 (Instr.rowWord 192 (.chkS3Short k) ||| shortMsg)
  | .chkS3Long k => .msg k .s3 (Instr.rowWord 192 (.chkS3Long k))
  | .chkC2Short k => .msg k .c2 (Instr.rowWord 192 (.chkC2Short k) ||| shortMsg)
  | .chkC2Long k => .msg k .c2 (Instr.rowWord 192 (.chkC2Long k))
  | .w0Level k => .msg k .s2 (Instr.rowWord 192 (.w0Level k))
  | .w0Rt k => .msg k .s2 (Instr.rowWord 192 (.w0Rt k))
  | .w0Latest k => .msg k .s2 (Instr.rowWord 192 (.w0Latest k))
  | .w0S2Dru k => .msg k .s2 (Instr.rowWord 192 (.w0S2Dru k))
  | .w0S2Pseudo k => .msg k .s2 (Instr.rowWord 192 (.w0S2Pseudo k))
  | .w0S3Type k => .msg k .s3 (Instr.rowWord 192 (.w0S3Type k))
  | .w0S3Serial k => .msg k .s3 (Instr.rowWord 192 (.w0S3Serial k))
  | .w0C2 k => .msg k .c2 (Instr.rowWord 192 (.w0C2 k))
  | .tcSarsat k => .msg k .s2 (Instr.rowWord 192 (.tcSarsat k))
  | .tcC2 k => .msg k .c2 (Instr.rowWord 192 (.tcC2 k))
  | .payShortS2 k => .msg k .s2 (Instr.rowWord 192 (.payShortS2 k) ||| shortMsg)
  | .payShortS3 k => .msg k .s3 (Instr.rowWord 192 (.payShortS3 k) ||| shortMsg)
  | .payShortC2 k => .msg k .c2 (Instr.rowWord 192 (.payShortC2 k) ||| shortMsg)
  | .payLongS2 k => .msg k .s2 (Instr.rowWord 192 (.payLongS2 k) ||| longMsg .s2)
  | .payLongS3 k => .msg k .s3 (Instr.rowWord 192 (.payLongS3 k) ||| longMsg .s3)
  | .payLongC2 k => .msg k .c2 (Instr.rowWord 192 (.payLongC2 k) ||| longMsg .c2)
  | .dopShort k => .msg k .s2 (Instr.rowWord 192 (.dopShort k) ||| shortMsg)
  | .dopLong k => .msg k .s2 (Instr.rowWord 192 (.dopLong k) ||| longMsg .s2)
  | .bcnHdr k => .payload k .len88 (Instr.rowWord 120 (.bcnHdr k))
  | .bcnCountry k => .payload k .len88 (Instr.rowWord 120 (.bcnCountry k))
  | .bcnBch1 k => .payload k .len88 (Instr.rowWord 120 (.bcnBch1 k))
  | .bcnBch2 k => .payload k .len120 (Instr.rowWord 120 (.bcnBch2 k))
  | .protoStdnat k => .payload k .len88 (Instr.rowWord 120 (.protoStdnat k))
  | .protoUser0 k => .payload k .len88 (Instr.rowWord 120 (.protoUser0 k))
  | .protoUser1 k => .payload k .len88 (Instr.rowWord 120 (.protoUser1 k))
  | .protoUser2 k => .payload k .len88 (Instr.rowWord 120 (.protoUser2 k))
  | .protoUser3 k => .payload k .len88 (Instr.rowWord 120 (.protoUser3 k))
  | .protoUser4 k => .payload k .len88 (Instr.rowWord 120 (.protoUser4 k))
  | .protoUser5 k => .payload k .len88 (Instr.rowWord 120 (.protoUser5 k))
  | .protoUser6 k => .payload k .len88 (Instr.rowWord 120 (.protoUser6 k))
  | .protoUser7 k => .payload k .len88 (Instr.rowWord 120 (.protoUser7 k))
  | .bcnPos k => .payload k .len120 (Instr.rowWord 120 (.bcnPos k))

/-! ## The opcode table's own numbering -/

/-- A pair's two bits filled up to a whole byte. The numbers 1, 2 and 3 are no legal command byte, so a table word that
holds one is a PAIR row's; 0 is the word of NOP and of PAIR.00 alike and is read as NOP (assumption 9). The command
decoder `decodeCmd` does not use this: on the command port these bytes are illegal. -/
def isPairByte (w : Nat) : Bool := decide (0 < w) && decide (w < 4)

/-- The instruction read from a table row's bits alone. A row's word is one unit of its format: the command byte
(8 bits), the pair (2 bits, or those in a whole byte), the frame (600), the message (192) or the payload (120), its
last bit bit 0. A message is read as its format class and a payload as its protocol, the operations its bits alone
select, in lane 0: which of the other operations run is the dialect's and the length's choice, which such a word does
not hold (assumption 9). -/
def decodeTableWord (nbits w : Nat) : Option Instr :=
  if nbits = 2 ∨ nbits = 8 ∧ isPairByte w = true then
    some (decodePair (bitAt (BitVec.ofNat 2 w) 0) (bitAt (BitVec.ofNat 2 w) 1))
  else if nbits = 8 then
    match decodeCmd (BitVec.ofNat 8 w) with
    | .instr i => some i
    | .illegal _ => none
  else if nbits = 600 then some (decodeFrame (BitVec.ofNat 600 w))
  else if nbits = 192 then some (fmtOp .k0 (classify (BitVec.ofNat 192 w)))
  else if nbits = 120 then some (protoOp .k0 (BitVec.ofNat 120 w))
  else none

end Sys2Proof
end

