-- ==== Sys2Proof/Machine/Ops.lean ====
section
/-! DEFINITION. The named operations the meanings share: the frame memory and the working buffer, recording a block
outcome (the block's "exception entry") and acknowledging it (its "return"), and driving the output ports. -/
namespace Sys2Proof.Machine

/-! ## Frame memory -/

/-- What an offset that no cell lists reads as: reset clears every frame byte (10_state R48). -/
def Memory.blank : Byte := 0

/-- The frame byte at an offset (00_scope R17, `B[i]`). -/
def Memory.get : Memory → Nat → Byte
  | [], _ => Memory.blank
  | (a, v) :: m, i => if a = i then v else Memory.get m i

/-- Writes one frame byte and keeps the canonical form: a byte equal to what an unlisted offset reads as is
not listed. -/
def Memory.set : Memory → Nat → Byte → Memory
  | [], i, v => if v = Memory.blank then [] else [(i, v)]
  | (a, b) :: m, i, v =>
    if i < a then (if v = Memory.blank then (a, b) :: m else (i, v) :: (a, b) :: m)
    else if i = a then (if v = Memory.blank then m else (i, v) :: m)
    else (a, b) :: Memory.set m i v

/-- The cells' offsets rise strictly from `lo` and stay below 75, and no cell is blank. -/
def Memory.wfFrom : Nat → Memory → Bool
  | _, [] => true
  | lo, (a, v) :: m => decide (lo ≤ a) && decide (a < Config.N_BYTES) && (v != Memory.blank) && Memory.wfFrom (a + 1) m

/-- The canonical form of the frame memory (assumption 4). -/
def Memory.wf (m : Memory) : Bool := Memory.wfFrom 0 m

/-- The memory whose 75 bytes spell a 600-bit sequence: the commit writes all of them (10_state R31). -/
def Memory.ofBits (f : FrameBits) : Memory :=
  (List.range Config.N_BYTES).foldl (fun m i => m.set i (frameByte f i)) []

/-- The number that the first n frame bytes spell, the first byte most significant. -/
def Memory.prefixNat (m : Memory) (n : Nat) : Nat :=
  (List.range n).foldl (fun acc i => acc * 256 + (m.get i).toNat) 0

/-- `FB`, the 600-bit sequence the frame bytes spell (10_state R32, 00_scope R14). -/
def Memory.fb (m : Memory) : FrameBits := BitVec.ofNat 600 (m.prefixNat Config.N_BYTES)

/-- `MemRead(a, n)`: FB[a : a+n) (20_memory R61). -/
def memRead (m : Memory) (a n : Nat) : BitVec n := bits m.fb a n

/-- `MemWrite(j, 1, v)` on the working buffer, 0 <= j <= 599 (20_memory R65). No caller forms another index;
there would be no such bit and nothing would be written (assumption 8). -/
def memWrite (w : FrameBits) (j : Nat) (v : Bool) : FrameBits :=
  if j < Config.N_BITS then
    let m : FrameBits := 1#600 <<< (599 - j)
    if v then w ||| m else w &&& ~~~m
  else w

/-! ## Recording an outcome and acknowledging it -/

/-- `BlockEndCommon(r)`: what every block end records (41_manchester R162, 60_exceptions R284). It saves nothing,
moves control nowhere and changes no mode; `now` is sampled here and nowhere else. -/
def blockEndCommon (now : Timestamp) (res : Result) (r : Regs) : Regs :=
  { r with ovr := ovrAfterBlockEnd r, newFlag := true, result := res, tstamp := now, symcnt := 0 }

/-- The return from an outcome: clears the flags the mask names and restores nothing
(40_host_commands R135, 60_exceptions R285). -/
def acknowledge (c b a : Bool) (r : Regs) : Regs :=
  { r with newFlag := ackedFlag a r.newFlag, ovr := ackedFlag b r.ovr, cmderr := ackedFlag c r.cmderr }

/-- An illegal command byte: the sticky flag CMDERR and nothing else (40_host_commands R137). -/
def illegalCommand (r : Regs) : Regs := { r with cmderr := true }

/-! ## Registers and messages of a state -/

/-- The state with its registers replaced. -/
def State.withRegs (s : State) (r : Regs) : State := { s with regs := r }

/-- The message of a lane, `M[k]` (20_memory R62). -/
def Regs.msg (r : Regs) (k : Lane) : MsgBits := memRead r.frame k.base 192

/-- Word j of a lane's message, `W[k][j]` (20_memory R63). -/
def Regs.word (r : Regs) (k : Lane) (j : Nat) : Word24 := wordOf (r.msg k) j

/-- The payload of a lane: present exactly when the frame is valid and the message is format-valid
(44_beacon_payload R230). -/
def Regs.payload (r : Regs) (k : Lane) : Option (PayloadLen × PayloadBits) :=
  if r.frameValid then payloadOf r.dialect (r.msg k) else none

/-! ## Output ports -/

/-- Lane k's record at the ports. -/
def Output.lane (o : Output) : Lane → Option LaneOut
  | .k0 => o.lane0
  | .k1 => o.lane1
  | .k2 => o.lane2

/-- The ports with lane k's record replaced. -/
def Output.setLane (o : Output) (k : Lane) (L : Option LaneOut) : Output :=
  match k with
  | .k0 => { o with lane0 := L }
  | .k1 => { o with lane1 := L }
  | .k2 => { o with lane2 := L }

/-- A lane record as the message decoder opens it: `raw`, `ts`, `dialect` (43_message_fields R180) and the support
flags, which the dialect alone decides (R200, R204, R219). No other field is driven yet. -/
def LaneOut.opened (r : Regs) (k : Lane) : LaneOut where
  raw         := r.msg k
  ts          := r.tstamp
  dialect     := r.dialect.code
  words       := { w0 := 0, w1 := 0, w2 := 0, w3 := 0, w4 := 0, w5 := 0, w6 := 0, w7 := 0 }
  format      := 0
  fmtChecked  := false
  fmtValid    := false
  unsupported := !r.dialect.isSarsat
  w0Supported := r.dialect.isSarsat
  level       := none
  rt          := none
  latest      := none
  dru         := none
  pseudo      := none
  csType      := none
  serial      := none
  tcSupported := r.dialect.isSarsat
  timecode    := none
  payload     := none
  doppler     := none
  bcn         := none

/-- A beacon record as the interpreter opens it: `ts`, `len`, `type`, `raw` (44_beacon_payload R230, R255).
No other field is driven yet. -/
def BcnOut.opened (r : Regs) (p : PayloadLen × PayloadBits) : BcnOut where
  ts           := r.tstamp
  len          := p.1.code
  long         := p.1 == .len120
  raw          := p.2
  formatFlag   := false
  protocolFlag := false
  countryCode  := 0
  countryKnown := false
  countryEntry := none
  bch1         := 0
  bch2         := none
  user         := false
  protocolNum  := none
  idKind       := 0
  idValue      := none
  callsign     := none
  pos          := none

/-- The lane record an operation finds: the one at the port, or a newly opened one. -/
def State.laneRec (s : State) (k : Lane) : LaneOut := (s.out.lane k).getD (LaneOut.opened s.regs k)

/-- The state with lane k's record replaced. -/
def State.setLane (s : State) (k : Lane) (L : LaneOut) : State := { s with out := s.out.setLane k (some L) }

/-- A message operation of lane k: when the frame is valid and the operation is selected, it drives its ports;
otherwise it drives nothing (43_message_fields R180, R224). -/
def State.drive (s : State) (k : Lane) (selected : Bool) (f : LaneOut → LaneOut) : State :=
  if s.regs.frameValid && selected then s.setLane k (f (s.laneRec k)) else s

/-- The record a lane has when its format check fails or is skipped: no payload, no Doppler outputs, no beacon
record (43_message_fields R206, R213; 60_exceptions R275). -/
def LaneOut.withoutPayload (L : LaneOut) : LaneOut := { L with payload := none, doppler := none, bcn := none }

/-- The result of a format check: `fmt_checked = 1`, `fmt_valid` as found (43_message_fields R186). -/
def LaneOut.checked (L : LaneOut) (valid : Bool) : LaneOut :=
  if valid then { L with fmtChecked := true, fmtValid := true }
  else { L.withoutPayload with fmtChecked := true, fmtValid := false }

/-- A beacon operation of lane k: when the lane has a payload that the operation is selected for, it drives its
ports in the lane's beacon record; otherwise it drives nothing (44_beacon_payload R230). -/
def State.driveBcn (s : State) (k : Lane) (selected : PayloadLen → PayloadBits → Bool)
    (f : PayloadBits → BcnOut → BcnOut) : State :=
  match s.regs.payload k with
  | none => s
  | some p =>
    if selected p.1 p.2 then
      s.setLane k { s.laneRec k with bcn := some (f p.2 ((s.laneRec k).bcn.getD (BcnOut.opened s.regs p))) }
    else s

/-- Lane k's record when the frame ports are driven: opened when the frame is valid, else absent (10_state R53). -/
def Regs.openedLane (r : Regs) (k : Lane) : Option LaneOut :=
  if r.frameValid then some (LaneOut.opened r k) else none

/-- The status and frame outputs of a register state, every lane opened or absent
(10_state R51, R52; 42_frame_sync R172, R173). -/
def Regs.frameOutputs (r : Regs) : Output where
  irq          := r.irq
  status       := r.statusWord
  cfg          := r.cfgWord
  framePresent := r.framePresent
  frameValid   := r.frameValid
  frameTs      := r.tstamp
  frameLen     := if r.framePresent then 75 else 0
  frameDialect := r.dialect.code
  frameBytes   := if r.framePresent then r.frame.fb else 0
  nMsgs        := if r.frameValid then 3 else 0
  lane0        := r.openedLane .k0
  lane1        := r.openedLane .k1
  lane2        := r.openedLane .k2

/-- The state with its status and frame ports driven from its registers and its lanes opened or absent. -/
def State.driveFrame (s : State) : State := { s with out := s.regs.frameOutputs }

/-! ## Outcomes -/

/-- What a meaning answers. -/
abbrev Answer := Host.Outcome State Fault Refusal

/-- Goes on from a next state; a fault or a refusal stands. -/
def andThen (a : Answer) (f : State → Answer) : Answer :=
  match a with
  | .next s => f s
  | .fault r => .fault r
  | .refused r => .refused r

end Sys2Proof.Machine
end

