-- ==== Sys2Proof/Machine/BeaconPayload.lean ====
section
/-! DEFINITION. The beacon operations of a lane (44_beacon_payload): header, country, check fields, protocol,
identification, position. Each reads the lane's payload, which the registers determine, and drives the ports of the
lane's beacon record. -/
namespace Sys2Proof.Machine

/-- Selected for a payload of either length. -/
def anyPayload (_ : PayloadLen) (_ : PayloadBits) : Bool := true

/-- Selected for a 120-bit payload. -/
def longPayload (len : PayloadLen) (_ : PayloadBits) : Bool := len == .len120

/-- Selected for a USER payload whose protocol number is n (30_encoding R113). -/
def userPayload (n : BitVec 3) (_ : PayloadLen) (P : PayloadBits) : Bool := protocolFlagOf P && protocolNumOf P == n

/-- The USER part of a beacon record: class, number, identification and call sign (44_beacon_payload R237). -/
def BcnOut.withUser (B : BcnOut) (P : PayloadBits) (kind : BitVec 3) (id : Option (BitVec 46))
    (cs : Option CallsignOut) : BcnOut :=
  { B with user := true, protocolNum := some (protocolNumOf P), idKind := kind, idValue := id, callsign := cs }

/-- A protocol that is not decoded: number only (44_beacon_payload R242). -/
def BcnOut.notDecoded (B : BcnOut) (P : PayloadBits) : BcnOut := B.withUser P 0 none none

/-- BCN.HDR (44_beacon_payload R231). -/
def execBcnHdr (k : Lane) (s : State) : Answer :=
  .next (s.driveBcn k anyPayload fun P B => { B with formatFlag := bitAt P 0, protocolFlag := protocolFlagOf P })

/-- BCN.COUNTRY: a code without an entry is an explicit unknown, not an error (44_beacon_payload R232, R258). -/
def execBcnCountry (k : Lane) (s : State) : Answer :=
  .next (s.driveBcn k anyPayload fun P B =>
    { B with countryCode := countryCodeOf P, countryKnown := (countryRom (countryCodeOf P)).isSome,
             countryEntry := countryRom (countryCodeOf P) })

/-- BCN.BCH1: raw, for both lengths (44_beacon_payload R233). -/
def execBcnBch1 (k : Lane) (s : State) : Answer :=
  .next (s.driveBcn k anyPayload fun P B => { B with bch1 := bits P 61 21 })

/-- BCN.BCH2: raw, for 120 bits only (44_beacon_payload R234). -/
def execBcnBch2 (k : Lane) (s : State) : Answer :=
  .next (s.driveBcn k longPayload fun P B => { B with bch2 := some (bits P 107 12) })

/-- PROTO.STDNAT: no further fields (44_beacon_payload R236). -/
def execProtoStdnat (k : Lane) (s : State) : Answer :=
  .next (s.driveBcn k (fun _ P => !protocolFlagOf P) fun _ B =>
    { B with user := false, protocolNum := none, idKind := 0, idValue := none, callsign := none })

/-- PROTO.USER0, Orbitography (44_beacon_payload R238). -/
def execProtoUser0 (k : Lane) (s : State) : Answer :=
  .next (s.driveBcn k (userPayload 0) fun P B => B.withUser P 1 (some (id46 P)) none)

/-- PROTO.USER1, Aviation (44_beacon_payload R239). -/
def execProtoUser1 (k : Lane) (s : State) : Answer :=
  .next (s.driveBcn k (userPayload 1) fun P B => B.withUser P 2 (some (id42 P)) none)

/-- PROTO.USER2, Marine (44_beacon_payload R240). -/
def execProtoUser2 (k : Lane) (s : State) : Answer :=
  .next (s.driveBcn k (userPayload 2) fun P B => B.withUser P 3 (some (id42 P)) none)

/-- PROTO.USER3, Serial (44_beacon_payload R241). -/
def execProtoUser3 (k : Lane) (s : State) : Answer :=
  .next (s.driveBcn k (userPayload 3) fun P B => B.withUser P 4 (some (id30 P)) none)

/-- PROTO.USER4, not decoded (44_beacon_payload R242). -/
def execProtoUser4 (k : Lane) (s : State) : Answer :=
  .next (s.driveBcn k (userPayload 4) fun P B => B.notDecoded P)

/-- PROTO.USER5, not decoded (44_beacon_payload R243). -/
def execProtoUser5 (k : Lane) (s : State) : Answer :=
  .next (s.driveBcn k (userPayload 5) fun P B => B.notDecoded P)

/-- PROTO.USER6, EPIRB with radio call sign: four characters, no id (44_beacon_payload R244). -/
def execProtoUser6 (k : Lane) (s : State) : Answer :=
  .next (s.driveBcn k (userPayload 6) fun P B => B.withUser P 0 none (some (callsignOf P)))

/-- PROTO.USER7, not decoded (44_beacon_payload R245). -/
def execProtoUser7 (k : Lane) (s : State) : Answer :=
  .next (s.driveBcn k (userPayload 7) fun P B => B.notDecoded P)

/-- BCN.POS: for 120 bits only, whatever the protocol (44_beacon_payload R247, R260). -/
def execBcnPos (k : Lane) (s : State) : Answer :=
  .next (s.driveBcn k longPayload fun P B => { B with pos := some (positionOf P) })

end Sys2Proof.Machine
end

