-- ==== Sys2Proof/Machine/FrameSync.lean ====
section
/-! DEFINITION. The frame synchroniser: SYNC.MATCH and SYNC.MISS at the commit of a good block
(42_frame_sync R171 to R173), and the ends of a block (41_manchester R158, R159, R161). -/
namespace Sys2Proof.Machine

/-- A 1200-symbol block without a violation is being committed (the opcode table's event of the FRAME rows). -/
def commitReady (r : Regs) : Bool := r.symcnt == 1199 && !r.violAct

/-- The committed bytes and their outcome (41_manchester R158). -/
def commitFrame (res : Result) (r : Regs) : Regs := { r with frame := Memory.ofBits r.wbuf, result := res }

/-- SYNC.MATCH on the registers: selected when the bits being committed match (42_frame_sync R172). -/
def syncMatchRegs (r : Regs) : Regs :=
  if commitReady r && syncMatch r.wbuf then commitFrame .syncOk r else r

/-- SYNC.MISS on the registers: selected when they do not; FRAME still receives them (42_frame_sync R173). -/
def syncMissRegs (r : Regs) : Regs :=
  if commitReady r && !syncMatch r.wbuf then commitFrame .syncFail r else r

/-- SYNC.MATCH: RESULT is SYNC_OK, the frame ports show a valid frame and the three lane records are opened
(42_frame_sync R172). -/
def execSyncMatch (s : State) : Answer :=
  .next (if commitReady s.regs && syncMatch s.regs.wbuf then (s.withRegs (syncMatchRegs s.regs)).driveFrame else s)

/-- SYNC.MISS: RESULT is SYNC_FAIL, the frame ports show an invalid frame and no lane record (42_frame_sync R173). -/
def execSyncMiss (s : State) : Answer :=
  .next (if commitReady s.regs && !syncMatch s.regs.wbuf then (s.withRegs (syncMissRegs s.regs)).driveFrame else s)

/-- The commit's sync operation: the pattern selects it (30_encoding R102). -/
def syncCommit (r : Regs) : Regs := if syncMatch r.wbuf then syncMatchRegs r else syncMissRegs r

/-- EndBlockGood: the commit, or LINE_VIOLATION with the frame cleared (41_manchester R158, R159). -/
def endBlockGood (now : Timestamp) (r : Regs) : Regs :=
  if r.violAct then blockEndCommon now .lineViolation { r with frame := [] }
  else blockEndCommon now (syncResult r.wbuf) (syncCommit r)

/-- EndBlockLength: LENGTH_ERROR with the frame cleared; VIOL_ACT is not consulted (41_manchester R161). -/
def endBlockLength (now : Timestamp) (r : Regs) : Regs :=
  blockEndCommon now .lengthError { r with frame := [] }

end Sys2Proof.Machine
end

