-- ==== Sys2Proof/Machine/Manchester.lean ====
section
/-! DEFINITION. The line decoder: the four pair operations (41_manchester R153 to R157). The held symbol is HOLD, the
arriving symbol is the second one of the operation's pattern, and the pair index is (SYMCNT - 1)/2. -/
namespace Sys2Proof.Machine

/-- The index of the pair being completed (40_host_commands R131). -/
def pairIndex (r : Regs) : Nat := (r.symcnt.toNat - 1) / 2

/-- A pair whose first symbol is `a` is being completed: HOLD is `a`, SYMCNT is odd and below 1200
(the opcode table's condition on the PAIR rows). -/
def pairReady (a : Bool) (r : Regs) : Bool :=
  r.hold == a && r.symcnt.getLsbD 0 && decide (r.symcnt.toNat < Config.N_SYM)

/-- A legal pair: the decoded bit is its first symbol xor INV_ACT, written to WBUF at the pair index
(30_encoding R101, 41_manchester R155). -/
def legalPair (a : Bool) (r : Regs) : Regs :=
  if pairReady a r then { r with wbuf := memWrite r.wbuf (pairIndex r) (a ^^ r.invAct) } else r

/-- A violating pair: VIOL_ACT is set, WBUF is not written (41_manchester R156, R157). -/
def violatingPair (a : Bool) (r : Regs) : Regs :=
  if pairReady a r then { r with violAct := true } else r

/-- PAIR.01 on the registers (41_manchester R153). -/
def pair01Regs (r : Regs) : Regs := legalPair false r
/-- PAIR.10 on the registers (41_manchester R154). -/
def pair10Regs (r : Regs) : Regs := legalPair true r
/-- PAIR.00 on the registers (41_manchester R156). -/
def pair00Regs (r : Regs) : Regs := violatingPair false r
/-- PAIR.11 on the registers (41_manchester R157). -/
def pair11Regs (r : Regs) : Regs := violatingPair true r

/-- PAIR.01 (41_manchester R153). -/
def execPair01 (s : State) : Answer := .next (s.withRegs (pair01Regs s.regs))
/-- PAIR.10 (41_manchester R154). -/
def execPair10 (s : State) : Answer := .next (s.withRegs (pair10Regs s.regs))
/-- PAIR.00 (41_manchester R156). -/
def execPair00 (s : State) : Answer := .next (s.withRegs (pair00Regs s.regs))
/-- PAIR.11 (41_manchester R157). -/
def execPair11 (s : State) : Answer := .next (s.withRegs (pair11Regs s.regs))

/-- PairDecode: the operation the held and the arriving symbol select (30_encoding R101, 40_host_commands R131). -/
def pairDecode (b : Bool) (r : Regs) : Regs :=
  match r.hold, b with
  | false, true => pair01Regs r
  | true, false => pair10Regs r
  | false, false => pair00Regs r
  | true, true => pair11Regs r

end Sys2Proof.Machine
end

