-- ==== Sys2Proof/Machine/HostCommands.lean ====
section
/-! DEFINITION. The six host commands (40_host_commands). A command acts on the registers in one atomic step; `now` is
the value on the input port in the cycle of the command. -/
namespace Sys2Proof.Machine

/-- The first symbol of a block loads INV_ACT and clears VIOL_ACT (40_host_commands R131, 10_state R37, R38). -/
def startBlock (r : Regs) : Regs :=
  if r.symcnt = 0 then { r with invAct := r.inv, violAct := false } else r

/-- The symbol at an even position is held, the one at an odd position completes a pair (40_host_commands R131). -/
def takeSymbol (b : Bool) (r : Regs) : Regs :=
  if r.symcnt.getLsbD 0 then pairDecode b r else { r with hold := b }

/-- SYM on the registers, the pseudocode of 40_host_commands R131 and R132. -/
def symRegs (now : Timestamp) (l b : Bool) (r : Regs) : Regs :=
  if r.symcnt = 1200 then
    if l then endBlockLength now r else r
  else
    let r' := takeSymbol b (startBlock r)
    if l then
      if r.symcnt = 1199 then endBlockGood now r' else endBlockLength now r'
    else { r' with symcnt := r.symcnt + 1 }

/-- SETDIALECT on the registers; code 3 is an illegal byte and leaves the dialect (40_host_commands R133). -/
def setdialectRegs (dd : BitVec 2) (r : Regs) : Regs :=
  match Dialect.ofCode dd with
  | some d => { r with dialect := d }
  | none => illegalCommand r

/-- NOP (40_host_commands R130). -/
def execNop (s : State) : Answer := .next s
/-- SYM s, l (40_host_commands R131, R132). -/
def execSym (l b : Bool) (s : State) : Answer := .next (s.withRegs (symRegs s.pins.now l b s.regs))
/-- SETDIALECT d (40_host_commands R133). -/
def execSetdialect (dd : BitVec 2) (s : State) : Answer := .next (s.withRegs (setdialectRegs dd s.regs))
/-- SETINV v: CFG.INV only; INV_ACT is loaded at the next block's start (40_host_commands R134). -/
def execSetinv (v : Bool) (s : State) : Answer := .next (s.withRegs { s.regs with inv := v })
/-- ACK m (40_host_commands R135). -/
def execAck (c b a : Bool) (s : State) : Answer := .next (s.withRegs (acknowledge c b a s.regs))
/-- SRST: every piece of state takes its reset value (40_host_commands R136). -/
def execSrst (s : State) : Answer := .next (s.withRegs Regs.reset)

end Sys2Proof.Machine
end

