-- ==== Sys2Proof/Machine/MessageFields.lean ====
section
/-! DEFINITION. The message operations of a lane (43_message_fields): word split, format class, format check, word0
fields, timecode, payload, Doppler. Each drives the ports its rule names when it is selected, and reads only the
registers: nothing in the block reads an output port (10_state R55). -/
namespace Sys2Proof.Machine

/-- The format class of a lane's message (43_message_fields R182). -/
def Regs.classOf (r : Regs) (k : Lane) : FormatClass := classify (r.msg k)

/-- A lane's message is of class `c` under dialect `d`. -/
def Regs.isMsg (r : Regs) (k : Lane) (d : Dialect) (c : FormatClass) : Bool := r.dialect == d && r.classOf k == c

/-- `fmt_valid` of a lane under the held dialect (43_message_fields R186). -/
def Regs.msgValid (r : Regs) (k : Lane) : Bool := fmtValidOf r.dialect (r.msg k)

/-- MSG.WORDS (43_message_fields R181). -/
def execMsgWords (k : Lane) (s : State) : Answer :=
  .next (s.drive k true fun L => { L with words := wordsOf (s.regs.msg k) })

/-- FMT.HK: the check is skipped and nothing that follows a valid check is present (43_message_fields R183, R186). -/
def execFmtHk (k : Lane) (s : State) : Answer :=
  .next (s.drive k (s.regs.classOf k == .housekeeping) fun L =>
    { L.withoutPayload with format := FormatClass.code .housekeeping, fmtChecked := false, fmtValid := false })

/-- FMT.SHORT (43_message_fields R184). -/
def execFmtShort (k : Lane) (s : State) : Answer :=
  .next (s.drive k (s.regs.classOf k == .short) fun L => { L with format := FormatClass.code .short })

/-- FMT.LONG (43_message_fields R185). -/
def execFmtLong (k : Lane) (s : State) : Answer :=
  .next (s.drive k (s.regs.classOf k == .long) fun L => { L with format := FormatClass.code .long })

/-- CHK.S2.SHORT: `w0[15] = 0` (43_message_fields R187). -/
def execChkS2Short (k : Lane) (s : State) : Answer :=
  .next (s.drive k (s.regs.isMsg k .s2 .short) fun L => L.checked (checkBitS2 (s.regs.msg k) == false))

/-- CHK.S2.LONG: `w0[15] = 1` (43_message_fields R188). -/
def execChkS2Long (k : Lane) (s : State) : Answer :=
  .next (s.drive k (s.regs.isMsg k .s2 .long) fun L => L.checked (checkBitS2 (s.regs.msg k) == true))

/-- CHK.S3.SHORT: `w2[0] = 0` (43_message_fields R189). -/
def execChkS3Short (k : Lane) (s : State) : Answer :=
  .next (s.drive k (s.regs.isMsg k .s3 .short) fun L => L.checked (checkBitS3 (s.regs.msg k) == false))

/-- CHK.S3.LONG: `w2[0] = 1` (43_message_fields R190). -/
def execChkS3Long (k : Lane) (s : State) : Answer :=
  .next (s.drive k (s.regs.isMsg k .s3 .long) fun L => L.checked (checkBitS3 (s.regs.msg k) == true))

/-- CHK.C2.SHORT: `w3[0] = 0` (43_message_fields R191). -/
def execChkC2Short (k : Lane) (s : State) : Answer :=
  .next (s.drive k (s.regs.isMsg k .c2 .short) fun L => L.checked (checkBitC2 (s.regs.msg k) == false))

/-- CHK.C2.LONG: `w3[0] = 1` (43_message_fields R192). -/
def execChkC2Long (k : Lane) (s : State) : Answer :=
  .next (s.drive k (s.regs.isMsg k .c2 .long) fun L => L.checked (checkBitC2 (s.regs.msg k) == true))

/-- W0.LEVEL (43_message_fields R193). -/
def execW0Level (k : Lane) (s : State) : Answer :=
  .next (s.drive k s.regs.dialect.isSarsat fun L => { L with level := some (levelOf (s.regs.word k 0)) })

/-- W0.RT: `w0[17]` (43_message_fields R194). -/
def execW0Rt (k : Lane) (s : State) : Answer :=
  .next (s.drive k s.regs.dialect.isSarsat fun L => { L with rt := some (bitAt (s.regs.word k 0) 17) })

/-- W0.LATEST: `w0[16]` (43_message_fields R195). -/
def execW0Latest (k : Lane) (s : State) : Answer :=
  .next (s.drive k s.regs.dialect.isSarsat fun L => { L with latest := some (bitAt (s.regs.word k 0) 16) })

/-- W0.S2.DRU: `uint(w0[15:17))`, overlapping `latest` and the check bit (43_message_fields R196). -/
def execW0S2Dru (k : Lane) (s : State) : Answer :=
  .next (s.drive k (s.regs.dialect == .s2) fun L => { L with dru := some (bits (s.regs.word k 0) 15 2) })

/-- W0.S2.PSEUDO: `w0[12]` (43_message_fields R197). -/
def execW0S2Pseudo (k : Lane) (s : State) : Answer :=
  .next (s.drive k (s.regs.dialect == .s2) fun L => { L with pseudo := some (bitAt (s.regs.word k 0) 12) })

/-- W0.S3.TYPE: `w0[15]` (43_message_fields R198). -/
def execW0S3Type (k : Lane) (s : State) : Answer :=
  .next (s.drive k (s.regs.dialect == .s3) fun L => { L with csType := some (bitAt (s.regs.word k 0) 15) })

/-- W0.S3.SERIAL (43_message_fields R199). -/
def execW0S3Serial (k : Lane) (s : State) : Answer :=
  .next (s.drive k (s.regs.dialect == .s3) fun L => { L with serial := some (serialOf (s.regs.word k 0)) })

/-- W0.C2: word0 is not decoded under COSPAS-SARP-2, and that is reported (43_message_fields R200, R219). -/
def execW0C2 (k : Lane) (s : State) : Answer :=
  .next (s.drive k (s.regs.dialect == .c2) fun L =>
    { L with w0Supported := false, unsupported := true, level := none, rt := none, latest := none, dru := none,
             pseudo := none, csType := none, serial := none })

/-- TC.SARSAT (43_message_fields R202). -/
def execTcSarsat (k : Lane) (s : State) : Answer :=
  .next (s.drive k s.regs.dialect.isSarsat fun L =>
    { L with tcSupported := true, timecode := some (timecodeOf (s.regs.word k 1)) })

/-- TC.C2: the timecode is not decoded under COSPAS-SARP-2, and that is reported (43_message_fields R204, R219). -/
def execTcC2 (k : Lane) (s : State) : Answer :=
  .next (s.drive k (s.regs.dialect == .c2) fun L =>
    { L with tcSupported := false, unsupported := true, timecode := none })

/-- The lane record with an 88-bit payload at its ports. -/
def LaneOut.withShortPayload (L : LaneOut) (P : PayloadBits) : LaneOut :=
  { L with payload := some { len := PayloadLen.code .len88, bits := P } }

/-- The lane record with a 120-bit payload at its ports. -/
def LaneOut.withLongPayload (L : LaneOut) (P : PayloadBits) : LaneOut :=
  { L with payload := some { len := PayloadLen.code .len120, bits := P } }

/-- PAY.SHORT.S2: `0 ++ M[48:135)` (43_message_fields R207). -/
def execPayShortS2 (k : Lane) (s : State) : Answer :=
  .next (s.drive k (s.regs.isMsg k .s2 .short && s.regs.msgValid k) fun L =>
    L.withShortPayload (payShort 48 (s.regs.msg k)))

/-- PAY.SHORT.S3: `0 ++ M[49:136)` (43_message_fields R208). -/
def execPayShortS3 (k : Lane) (s : State) : Answer :=
  .next (s.drive k (s.regs.isMsg k .s3 .short && s.regs.msgValid k) fun L =>
    L.withShortPayload (payShort 49 (s.regs.msg k)))

/-- PAY.SHORT.C2: `0 ++ M[72:159)` (43_message_fields R209). -/
def execPayShortC2 (k : Lane) (s : State) : Answer :=
  .next (s.drive k (s.regs.isMsg k .c2 .short && s.regs.msgValid k) fun L =>
    L.withShortPayload (payShort 72 (s.regs.msg k)))

/-- PAY.LONG.S2: `1 ++ M[48:167)` (43_message_fields R210). -/
def execPayLongS2 (k : Lane) (s : State) : Answer :=
  .next (s.drive k (s.regs.isMsg k .s2 .long && s.regs.msgValid k) fun L =>
    L.withLongPayload (payLong 48 (s.regs.msg k)))

/-- PAY.LONG.S3: `1 ++ M[49:168)` (43_message_fields R211). -/
def execPayLongS3 (k : Lane) (s : State) : Answer :=
  .next (s.drive k (s.regs.isMsg k .s3 .long && s.regs.msgValid k) fun L =>
    L.withLongPayload (payLong 49 (s.regs.msg k)))

/-- PAY.LONG.C2: `1 ++ M[72:191)` (43_message_fields R212). -/
def execPayLongC2 (k : Lane) (s : State) : Answer :=
  .next (s.drive k (s.regs.isMsg k .c2 .long && s.regs.msgValid k) fun L =>
    L.withLongPayload (payLong 72 (s.regs.msg k)))

/-- DOP.SHORT: the Doppler outputs of word6, under every dialect (43_message_fields R213, R214). -/
def execDopShort (k : Lane) (s : State) : Answer :=
  .next (s.drive k (s.regs.classOf k == .short && s.regs.msgValid k) fun L =>
    { L with doppler := some (dopplerOf (s.regs.word k 6)) })

/-- DOP.LONG: the Doppler outputs of word7, under every dialect (43_message_fields R213, R215). -/
def execDopLong (k : Lane) (s : State) : Answer :=
  .next (s.drive k (s.regs.classOf k == .long && s.regs.msgValid k) fun L =>
    { L with doppler := some (dopplerOf (s.regs.word k 7)) })

end Sys2Proof.Machine
end

