-- ==== Sys2Proof/Machine/Dispatch.lean ====
section
/-! DEFINITION. exec: one arm per constructor of Instr. -/
namespace Sys2Proof.Machine

def exec (i : Instr) (s : State) : Host.Outcome State Fault Refusal :=
  match i with
  | .nop => Sys2Proof.Machine.execNop s
  | .sym l b => Sys2Proof.Machine.execSym l b s
  | .setdialect dd => Sys2Proof.Machine.execSetdialect dd s
  | .setinv v => Sys2Proof.Machine.execSetinv v s
  | .ack c b a => Sys2Proof.Machine.execAck c b a s
  | .srst => Sys2Proof.Machine.execSrst s
  | .pair01 => Sys2Proof.Machine.execPair01 s
  | .pair10 => Sys2Proof.Machine.execPair10 s
  | .pair00 => Sys2Proof.Machine.execPair00 s
  | .pair11 => Sys2Proof.Machine.execPair11 s
  | .syncMatch => Sys2Proof.Machine.execSyncMatch s
  | .syncMiss => Sys2Proof.Machine.execSyncMiss s
  | .msgWords k => Sys2Proof.Machine.execMsgWords k s
  | .fmtHk k => Sys2Proof.Machine.execFmtHk k s
  | .fmtShort k => Sys2Proof.Machine.execFmtShort k s
  | .fmtLong k => Sys2Proof.Machine.execFmtLong k s
  | .chkS2Short k => Sys2Proof.Machine.execChkS2Short k s
  | .chkS2Long k => Sys2Proof.Machine.execChkS2Long k s
  | .chkS3Short k => Sys2Proof.Machine.execChkS3Short k s
  | .chkS3Long k => Sys2Proof.Machine.execChkS3Long k s
  | .chkC2Short k => Sys2Proof.Machine.execChkC2Short k s
  | .chkC2Long k => Sys2Proof.Machine.execChkC2Long k s
  | .w0Level k => Sys2Proof.Machine.execW0Level k s
  | .w0Rt k => Sys2Proof.Machine.execW0Rt k s
  | .w0Latest k => Sys2Proof.Machine.execW0Latest k s
  | .w0S2Dru k => Sys2Proof.Machine.execW0S2Dru k s
  | .w0S2Pseudo k => Sys2Proof.Machine.execW0S2Pseudo k s
  | .w0S3Type k => Sys2Proof.Machine.execW0S3Type k s
  | .w0S3Serial k => Sys2Proof.Machine.execW0S3Serial k s
  | .w0C2 k => Sys2Proof.Machine.execW0C2 k s
  | .tcSarsat k => Sys2Proof.Machine.execTcSarsat k s
  | .tcC2 k => Sys2Proof.Machine.execTcC2 k s
  | .payShortS2 k => Sys2Proof.Machine.execPayShortS2 k s
  | .payShortS3 k => Sys2Proof.Machine.execPayShortS3 k s
  | .payShortC2 k => Sys2Proof.Machine.execPayShortC2 k s
  | .payLongS2 k => Sys2Proof.Machine.execPayLongS2 k s
  | .payLongS3 k => Sys2Proof.Machine.execPayLongS3 k s
  | .payLongC2 k => Sys2Proof.Machine.execPayLongC2 k s
  | .dopShort k => Sys2Proof.Machine.execDopShort k s
  | .dopLong k => Sys2Proof.Machine.execDopLong k s
  | .bcnHdr k => Sys2Proof.Machine.execBcnHdr k s
  | .bcnCountry k => Sys2Proof.Machine.execBcnCountry k s
  | .bcnBch1 k => Sys2Proof.Machine.execBcnBch1 k s
  | .bcnBch2 k => Sys2Proof.Machine.execBcnBch2 k s
  | .protoStdnat k => Sys2Proof.Machine.execProtoStdnat k s
  | .protoUser0 k => Sys2Proof.Machine.execProtoUser0 k s
  | .protoUser1 k => Sys2Proof.Machine.execProtoUser1 k s
  | .protoUser2 k => Sys2Proof.Machine.execProtoUser2 k s
  | .protoUser3 k => Sys2Proof.Machine.execProtoUser3 k s
  | .protoUser4 k => Sys2Proof.Machine.execProtoUser4 k s
  | .protoUser5 k => Sys2Proof.Machine.execProtoUser5 k s
  | .protoUser6 k => Sys2Proof.Machine.execProtoUser6 k s
  | .protoUser7 k => Sys2Proof.Machine.execProtoUser7 k s
  | .bcnPos k => Sys2Proof.Machine.execBcnPos k s

end Sys2Proof.Machine
end

