-- ==== Sys2Proof/Machine/Cycle.lean ====
section
/-! DEFINITION. One clock cycle (40_host_commands R139): the command on the pins acts on the registers, then the
operations the registers select drive the output ports, then the host's next cycle is presented. Also how a table
row's word is placed where the block takes it from. -/
namespace Sys2Proof.Machine

/-- Runs operations in order. -/
def runOps : List Instr → State → Answer
  | [], s => .next s
  | i :: is, s => andThen (exec i s) (runOps is)

/-- The operations lane k's registers select: none unless the frame is valid; the beacon operations only when the
message has a payload (43_message_fields R180, 44_beacon_payload R230). -/
def Regs.laneOps (r : Regs) (k : Lane) : List Instr :=
  if r.frameValid then
    decodeMsg k r.dialect (r.msg k) ++
      (match r.payload k with
      | none => []
      | some p => decodePayload k p.1 p.2)
  else []

/-- The operations of the three lanes; the lanes share no bit, so their order shows nowhere (42_frame_sync R175). -/
def Regs.ops (r : Regs) : List Instr := r.laneOps .k0 ++ r.laneOps .k1 ++ r.laneOps .k2

/-- Drives every output port anew from the registers (10_state R50): the status and frame ports and the opened
lanes, then each selected operation's own ports. -/
def settle (s : State) : Answer := runOps s.regs.ops s.driveFrame

/-- What the input pins do to the registers: `rst` first, then no command, then the decoded command or the illegal
byte (40_host_commands R137 to R139). -/
def command (s : State) : Answer :=
  if s.pins.rst then .next (s.withRegs Regs.reset)
  else if s.pins.cmdValid then
    match decodeCmd s.pins.cmd with
    | .instr i => exec i s
    | .illegal _ => .next (s.withRegs (illegalCommand s.regs))
  else .next s

/-- The host's next cycle comes to the pins; after its last one it presents nothing (assumption 2). -/
def State.advance (s : State) : State :=
  match s.script with
  | [] => { s with pins := Pins.idle }
  | p :: ps => { s with pins := p, script := ps }

/-- One clock cycle. -/
def cycle (s : State) : Answer := andThen (andThen (command s) settle) fun t => .next t.advance

/-! ## Placing a table row's word (assumption 9) -/

/-- The command byte on the pins. -/
def State.presentCmd (s : State) (c : Byte) : State :=
  { s with pins := { s.pins with rst := false, cmdValid := true, cmd := c } }

/-- No command on the pins. -/
def State.presentNone (s : State) : State := { s with pins := { s.pins with rst := false, cmdValid := false } }

/-- A pair about to be completed: its first symbol held at position 1, its second on the pins as a SYM. -/
def State.placePair (s : State) (p : BitVec 2) : State :=
  ({ s with regs := { s.regs with hold := bitAt p 0, symcnt := 1 } }).presentCmd (if bitAt p 1 then 0x11 else 0x10)

/-- A frame about to be committed: WBUF holds it, the last symbol of a block without violation is on the pins and
completes a legal pair that decodes to the frame's last bit. -/
def State.placeFrame (s : State) (f : FrameBits) : State :=
  let a := bitAt f 599 ^^ s.regs.invAct
  ({ s with regs := { s.regs with wbuf := f, symcnt := 1199, hold := a, violAct := false } }).presentCmd
    (if a then 0x12 else 0x13)

/-- A message held in lane 0 of a valid frame. -/
def State.placeMsg (s : State) (M : MsgBits) : State :=
  ({ s with regs := { s.regs with frame := Memory.ofBits (M ++ 0#408), result := .syncOk } }).presentNone

/-- The SARSAT-SARP-3 message whose payload a word is: SHORT for prefix bit 0 (its first 88 bits), LONG for 1; the
payload reads as message bits 48 on (43_message_fields R208, R211). -/
def msgOfPayload (P : PayloadBits) : MsgBits :=
  if bitAt P 0 then 0#48 ++ P ++ 0#24 else 0#48 ++ bits P 0 88 ++ 0#55 ++ 1#1

/-- A payload in lane 0 of a valid frame under SARSAT-SARP-3. -/
def State.placePayload (s : State) (P : PayloadBits) : State :=
  ({ s with regs := { s.regs with dialect := .s3 } }).placeMsg (msgOfPayload P)

/-- The state whose next cycle runs the instruction of a table row's word (numbered as `decodeTableWord` says). -/
def State.placeWord (s : State) (nbits w : Nat) : State :=
  if nbits = 2 ∨ nbits = 8 ∧ isPairByte w = true then s.placePair (BitVec.ofNat 2 w)
  else if nbits = 8 then s.presentCmd (BitVec.ofNat 8 w)
  else if nbits = 600 then s.placeFrame (BitVec.ofNat 600 w)
  else if nbits = 192 then s.placeMsg (BitVec.ofNat 192 w)
  else if nbits = 120 then s.placePayload (BitVec.ofNat 120 w)
  else s

end Sys2Proof.Machine
end

