-- ==== Sys2Proof/Machine/Step.lean ====
section
/-! DEFINITION. The step: one clock cycle of the block (00_scope R19). -/
namespace Sys2Proof.Machine

/-- One step: one clock cycle (40_host_commands R139). -/
def step (s : State) : Host.Outcome State Fault Refusal := cycle s

/-- `s` with the instruction of a table row's word placed where the next step takes it from: a command byte on the
command port (10_state R56), any other word in the registers that select its operation (assumption 9). -/
def State.withFetchWord (s : State) (nbits w : Nat) : State := s.placeWord nbits w

end Sys2Proof.Machine
end

