-- ==== Sys2Proof/Machine/BlockFunction.lean ====
section
/-! DEFINITION. The whole-block functions the document specifies (41_manchester R151, R160, R163), over lists of symbols,
and the host's command streams for a block (30_encoding R118). The step does not call them. -/
namespace Sys2Proof.Machine

/-- ManchesterDecode(s, inv): `none` is a violation; a sequence of odd length is no input of it (41_manchester R151). -/
def manchesterDecode (inv : Bool) : List Bool → Option (List Bool)
  | [] => some []
  | [_] => none
  | a :: b :: rest =>
    if a = b then none
    else (manchesterDecode inv rest).map fun d => (a ^^ inv) :: d

/-- ManchesterEncode(d, inv) (41_manchester R163). -/
def manchesterEncode (inv : Bool) : List Bool → List Bool
  | [] => []
  | d :: ds => (d ^^ inv) :: (!(d ^^ inv)) :: manchesterEncode inv ds

/-- The 600-bit sequence a list of bits spells, the first bit most significant. -/
def frameOfBits (d : List Bool) : FrameBits := BitVec.ofNat 600 (d.foldl (fun acc b => 2 * acc + b.toNat) 0)

/-- BlockOutcome(s, v): the length is judged before the line code, the line code before the pattern
(41_manchester R160, 60_exceptions R281). -/
def blockOutcome (ss : List Bool) (v : Bool) : Result × FrameBits :=
  if ss.length ≠ Config.N_SYM then (.lengthError, 0)
  else
    match manchesterDecode v ss with
    | none => (.lineViolation, 0)
    | some d => (syncResult (frameOfBits d), frameOfBits d)

/-- The commands that deliver a block: `last` on the final symbol and on no other (70_reset_and_hazards R305). -/
def blockCommands : List Bool → List Instr
  | [] => []
  | [b] => [.sym true b]
  | b :: c :: rest => .sym false b :: blockCommands (c :: rest)

/-- The command byte of SYM (30_encoding R93). -/
def symByte (l b : Bool) : Byte := 1#4 ++ 0#2 ++ BitVec.ofBool l ++ BitVec.ofBool b

/-- A cycle that presents a command byte. -/
def cmdPins (c : Byte) (now : Timestamp) : Pins := { rst := false, cmdValid := true, cmd := c, now := now }

/-- The cycles that deliver a block, each symbol with the value of `now` in its cycle. -/
def blockPins : List (Bool × Timestamp) → List Pins
  | [] => []
  | [x] => [cmdPins (symByte true x.1) x.2]
  | x :: y :: rest => cmdPins (symByte false x.1) x.2 :: blockPins (y :: rest)

end Sys2Proof.Machine
end

