-- ==== Sys2Proof/Machine/Outputs.lean ====
section
/-! DEFINITION. The output function Decode(FRAME, STATUS, CFG, TSTAMP) of 10_state R50, written field by field from the
tables of R51 to R54, and the port-level form of optional fields (R55). The step does not call it: it runs the
selected operations, and that both give the same record is a claim about the model. -/
namespace Sys2Proof.Machine

/-- The identification kind, value and call sign of a USER payload, by protocol number
(44_beacon_payload R238 to R245). -/
def userIdent (P : PayloadBits) : BitVec 3 × Option (BitVec 46) × Option CallsignOut :=
  match (protocolNumOf P).toNat with
  | 0 => (1, some (id46 P), none)
  | 1 => (2, some (id42 P), none)
  | 2 => (3, some (id42 P), none)
  | 3 => (4, some (id30 P), none)
  | 6 => (0, none, some (callsignOf P))
  | _ => (0, none, none)

/-- The beacon record of a payload (10_state R54). -/
def beaconOutputs (ts : Timestamp) (len : PayloadLen) (P : PayloadBits) : BcnOut where
  ts           := ts
  len          := len.code
  long         := len == .len120
  raw          := P
  formatFlag   := bitAt P 0
  protocolFlag := protocolFlagOf P
  countryCode  := countryCodeOf P
  countryKnown := (countryRom (countryCodeOf P)).isSome
  countryEntry := countryRom (countryCodeOf P)
  bch1         := bits P 61 21
  bch2         := if len = .len120 then some (bits P 107 12) else none
  user         := protocolFlagOf P
  protocolNum  := if protocolFlagOf P then some (protocolNumOf P) else none
  idKind       := if protocolFlagOf P then (userIdent P).1 else 0
  idValue      := if protocolFlagOf P then (userIdent P).2.1 else none
  callsign     := if protocolFlagOf P then (userIdent P).2.2 else none
  pos          := if len = .len120 then some (positionOf P) else none

/-- The Doppler word of a message: word6 for SHORT, word7 for LONG (43_message_fields R213). -/
def dopplerWord (M : MsgBits) : Word24 := if classify M = .short then wordOf M 6 else wordOf M 7

/-- The record of a lane whose frame is valid (10_state R53). -/
def laneOutputs (ts : Timestamp) (d : Dialect) (M : MsgBits) : LaneOut where
  raw         := M
  ts          := ts
  dialect     := d.code
  words       := wordsOf M
  format      := (classify M).code
  fmtChecked  := fmtCheckedOf M
  fmtValid    := fmtValidOf d M
  unsupported := d == .c2
  w0Supported := d != .c2
  level       := if d.isSarsat then some (levelOf (wordOf M 0)) else none
  rt          := if d.isSarsat then some (bitAt (wordOf M 0) 17) else none
  latest      := if d.isSarsat then some (bitAt (wordOf M 0) 16) else none
  dru         := if d = .s2 then some (bits (wordOf M 0) 15 2) else none
  pseudo      := if d = .s2 then some (bitAt (wordOf M 0) 12) else none
  csType      := if d = .s3 then some (bitAt (wordOf M 0) 15) else none
  serial      := if d = .s3 then some (serialOf (wordOf M 0)) else none
  tcSupported := d != .c2
  timecode    := if d.isSarsat then some (timecodeOf (wordOf M 1)) else none
  payload     := (payloadOf d M).map fun p => { len := p.1.code, bits := p.2 }
  doppler     := if fmtValidOf d M then some (dopplerOf (dopplerWord M)) else none
  bcn         := (payloadOf d M).map fun p => beaconOutputs ts p.1 p.2

/-- A lane's record, absent unless the frame is valid (10_state R53). -/
def Regs.laneRecord (r : Regs) (k : Lane) : Option LaneOut :=
  if r.frameValid then some (laneOutputs r.tstamp r.dialect (r.msg k)) else none

/-- The whole output record (10_state R50 to R54). -/
def decodeOutputs (r : Regs) : Output where
  irq          := r.irq
  status       := r.statusWord
  cfg          := r.cfgWord
  framePresent := r.framePresent
  frameValid   := r.frameValid
  frameTs      := r.tstamp
  frameLen     := if r.framePresent then 75 else 0
  frameDialect := r.dialect.code
  frameBytes   := if r.framePresent then r.frame.fb else 0
  nMsgs        := if r.frameValid then 3 else 0
  lane0        := r.laneRecord .k0
  lane1        := r.laneRecord .k1
  lane2        := r.laneRecord .k2

/-! ## Port-level form of optional fields (10_state R55)

The status and frame outputs of `Output` are never optional and are their own ports. The ports of lane k are
`lanePorts (o.lane k)`, the ports of its beacon record among them. -/

/-- A `<name>_present` bit beside a value port. -/
structure Port (w : Nat) where
  present : Bool
  value   : BitVec w
  deriving DecidableEq, Repr

/-- The port of an absent field: present bit 0, value all zeros (10_state R55, 00_scope R16). -/
def Port.absent {w : Nat} : Port w := { present := false, value := 0 }

/-- The port of an optional field. -/
def portOf {w : Nat} : Option (BitVec w) → Port w
  | some v => { present := true, value := v }
  | none => .absent

/-- The port of an optional field of an optional record: an absent record drives every present bit inside it to 0. -/
def fieldPort {α : Type} {w : Nat} (rec : Option α) (f : α → Option (BitVec w)) : Port w := portOf (rec.bind f)

/-- The port of an optional flag. -/
def flagPort {α : Type} (rec : Option α) (f : α → Option Bool) : Port 1 := portOf ((rec.bind f).map BitVec.ofBool)

/-- The value port of a field that every present record has: all zeros when the record is absent. -/
def valuePort {α : Type} {w : Nat} (rec : Option α) (f : α → BitVec w) : BitVec w := (rec.map f).getD 0

/-- The value port of a flag that every present record has: 0 when the record is absent. -/
def bitPort {α : Type} (rec : Option α) (f : α → Bool) : Bool := (rec.map f).getD false

/-- The ports of a beacon record (10_state R54); the four characters stand first to last in 32 bits, a country entry is
its alpha-2 code before its name. -/
structure BcnPorts where
  present      : Bool
  ts           : Timestamp
  len          : BitVec 7
  long         : Bool
  raw          : PayloadBits
  formatFlag   : Bool
  protocolFlag : Bool
  countryCode  : BitVec 10
  countryKnown : Bool
  countryEntry : Port (16 + Config.NAME_W)
  bch1         : BitVec 21
  bch2         : Port 12
  user         : Bool
  protocolNum  : Port 3
  idKind       : BitVec 3
  idValue      : Port 46
  callsign     : Port 32
  callsignMiss : Port 4
  posSource    : Port 1
  posLatFlag   : Port 1
  posLatDeg    : Port 7
  posLatMin4   : Port 4
  posLatMin    : Port 6
  posLonFlag   : Port 1
  posLonDeg    : Port 8
  posLonMin4   : Port 4
  posLonMin    : Port 6
  deriving DecidableEq, Repr

/-- The bits a country entry drives at its port. -/
def entryBits (e : Config.CountryEntry) : BitVec (16 + Config.NAME_W) := e.alpha2 ++ Config.nameBits e.name

/-- The four characters of a call sign at their port. -/
def CallsignOut.codes (c : CallsignOut) : BitVec 32 := c.c0.code ++ c.c1.code ++ c.c2.code ++ c.c3.code

/-- The four miss flags of a call sign at their port. -/
def CallsignOut.misses (c : CallsignOut) : BitVec 4 :=
  BitVec.ofBool c.c0.miss ++ BitVec.ofBool c.c1.miss ++ BitVec.ofBool c.c2.miss ++ BitVec.ofBool c.c3.miss

/-- The ports of an optional beacon record. -/
def bcnPorts (B : Option BcnOut) : BcnPorts where
  present      := B.isSome
  ts           := valuePort B (·.ts)
  len          := valuePort B (·.len)
  long         := bitPort B (·.long)
  raw          := valuePort B (·.raw)
  formatFlag   := bitPort B (·.formatFlag)
  protocolFlag := bitPort B (·.protocolFlag)
  countryCode  := valuePort B (·.countryCode)
  countryKnown := bitPort B (·.countryKnown)
  countryEntry := fieldPort B fun b => b.countryEntry.map entryBits
  bch1         := valuePort B (·.bch1)
  bch2         := fieldPort B (·.bch2)
  user         := bitPort B (·.user)
  protocolNum  := fieldPort B (·.protocolNum)
  idKind       := valuePort B (·.idKind)
  idValue      := fieldPort B (·.idValue)
  callsign     := fieldPort B fun b => b.callsign.map (·.codes)
  callsignMiss := fieldPort B fun b => b.callsign.map (·.misses)
  posSource    := flagPort B fun b => b.pos.map (·.source)
  posLatFlag   := flagPort B fun b => b.pos.map (·.latFlag)
  posLatDeg    := fieldPort B fun b => b.pos.map (·.latDeg)
  posLatMin4   := fieldPort B fun b => b.pos.map (·.latMin4)
  posLatMin    := fieldPort B fun b => b.pos.map (·.latMin)
  posLonFlag   := flagPort B fun b => b.pos.map (·.lonFlag)
  posLonDeg    := fieldPort B fun b => b.pos.map (·.lonDeg)
  posLonMin4   := fieldPort B fun b => b.pos.map (·.lonMin4)
  posLonMin    := fieldPort B fun b => b.pos.map (·.lonMin)

/-- The ports of a lane (10_state R53). -/
structure LanePorts where
  present        : Bool
  raw            : MsgBits
  ts             : Timestamp
  dialect        : BitVec 2
  word0          : Word24
  word1          : Word24
  word2          : Word24
  word3          : Word24
  word4          : Word24
  word5          : Word24
  word6          : Word24
  word7          : Word24
  format         : BitVec 2
  fmtChecked     : Bool
  fmtValid       : Bool
  unsupported    : Bool
  w0Supported    : Bool
  level          : Port 6
  levelCdbm      : Port 16
  rt             : Port 1
  latest         : Port 1
  dru            : Port 2
  pseudo         : Port 1
  csType         : Port 1
  serial         : Port 3
  serialDdb      : Port 10
  tcSupported    : Bool
  timecode       : Port 23
  tcParityBit    : Port 1
  tcParityValid  : Port 1
  payloadLen     : Port 7
  payload        : Port 120
  doppler        : Port 23
  dopParityBit   : Port 1
  dopParityValid : Port 1
  absFreqMhz     : Port 40
  bcn            : BcnPorts
  deriving DecidableEq, Repr

/-- The ports of an optional lane record. -/
def lanePorts (L : Option LaneOut) : LanePorts where
  present        := L.isSome
  raw            := valuePort L (·.raw)
  ts             := valuePort L (·.ts)
  dialect        := valuePort L (·.dialect)
  word0          := valuePort L (·.words.w0)
  word1          := valuePort L (·.words.w1)
  word2          := valuePort L (·.words.w2)
  word3          := valuePort L (·.words.w3)
  word4          := valuePort L (·.words.w4)
  word5          := valuePort L (·.words.w5)
  word6          := valuePort L (·.words.w6)
  word7          := valuePort L (·.words.w7)
  format         := valuePort L (·.format)
  fmtChecked     := bitPort L (·.fmtChecked)
  fmtValid       := bitPort L (·.fmtValid)
  unsupported    := bitPort L (·.unsupported)
  w0Supported    := bitPort L (·.w0Supported)
  level          := fieldPort L fun l => l.level.map (·.level)
  levelCdbm      := fieldPort L fun l => l.level.map (·.levelCdbm)
  rt             := flagPort L (·.rt)
  latest         := flagPort L (·.latest)
  dru            := fieldPort L (·.dru)
  pseudo         := flagPort L (·.pseudo)
  csType         := flagPort L (·.csType)
  serial         := fieldPort L fun l => l.serial.map (·.serial)
  serialDdb      := fieldPort L fun l => l.serial.map (·.serialDdb)
  tcSupported    := bitPort L (·.tcSupported)
  timecode       := fieldPort L fun l => l.timecode.map (·.timecode)
  tcParityBit    := flagPort L fun l => l.timecode.map (·.parityBit)
  tcParityValid  := flagPort L fun l => l.timecode.map (·.parityValid)
  payloadLen     := fieldPort L fun l => l.payload.map (·.len)
  payload        := fieldPort L fun l => l.payload.map (·.bits)
  doppler        := fieldPort L fun l => l.doppler.map (·.doppler)
  dopParityBit   := flagPort L fun l => l.doppler.map (·.parityBit)
  dopParityValid := flagPort L fun l => l.doppler.map (·.parityValid)
  absFreqMhz     := fieldPort L fun l => l.doppler.map (·.absFreqMhz)
  bcn            := bcnPorts (L.bind (·.bcn))

end Sys2Proof.Machine
end

