-- ==== Sys2Proof/Safety.lean ====
section
/-! DEFINITION. What claims speak of: the invariant of reachable states (10_state R49); frame bits, words, fields and
format classes read from the frame's bytes by ordinary arithmetic, apart from the model's own operand forms; runs of
cycles; and what an operation leaves alone. -/
namespace Sys2Proof.Machine

/-! ## States -/

/-- What holds of the registers in every state reachable from reset (10_state R49), with the canonical form of the
frame memory. Its clauses on the legal codes of CFG.DIALECT and STATUS.RESULT hold by type (assumption 5). -/
structure Inv (r : Regs) : Prop where
  symcnt_le   : r.symcnt.toNat ≤ 1200
  frame_wf    : r.frame.wf = true
  frame_blank : r.framePresent = false → r.frame = []
  sync_ok     : r.framePresent = true → (r.result = .syncOk ↔ syncMatch r.frame.fb = true)
  flags_set   : r.newFlag = true ∨ r.ovr = true → r.result ≠ .none

/-- The output ports show Decode(FRAME, STATUS, CFG, TSTAMP) (10_state R50). -/
def Settled (s : State) : Prop := s.out = decodeOutputs s.regs

/-- Every bit of the nine items of state is zero, item by item (70_reset_and_hazards R300). -/
structure AllZero (r : Regs) : Prop where
  frame   : ∀ i, r.frame.get i = 0#8
  wbuf    : r.wbuf = 0#600
  symcnt  : r.symcnt = 0#11
  hold    : r.hold = false
  invAct  : r.invAct = false
  violAct : r.violAct = false
  cfg     : r.cfgWord = 0#3
  status  : r.statusWord = 0#6
  tstamp  : r.tstamp = 0

/-- The ports when nothing is held: no frame, no lane record (70_reset_and_hazards R301). -/
structure NothingShown (o : Output) : Prop where
  present : o.framePresent = false
  valid   : o.frameValid = false
  len     : o.frameLen = 0#7
  bytes   : o.frameBytes = 0#600
  count   : o.nMsgs = 0#2
  lanes   : ∀ k, o.lane k = none

/-! ## Answers and runs -/

/-- The answer is a next state of which `p` holds. -/
def Goes (a : Answer) (p : State → Prop) : Prop := ∃ t, a = .next t ∧ p t

/-- Steps through cycles with the given pins, whatever the state's own script is. -/
def runCycles : List Pins → State → Answer
  | [], s => .next s
  | p :: ps, s => andThen (step { s with pins := p }) (runCycles ps)

/-- The command a cycle presents, if it presents a legal one and `rst` is low. -/
def Pins.instr (p : Pins) : Option Instr :=
  if p.rst || !p.cmdValid then none
  else
    match decodeCmd p.cmd with
    | .instr i => some i
    | .illegal _ => none

/-- The symbol a cycle delivers: its `last` flag and its value. -/
def Pins.symbol (p : Pins) : Option (Bool × Bool) :=
  match p.instr with
  | some (.sym l b) => some (l, b)
  | _ => none

/-- The cycle resets the block, by the pin or by SRST. -/
def Pins.resets (p : Pins) : Bool := p.rst || p.instr == some .srst

/-- A block's symbols with their `last` flags: set on the final one and on no other (70_reset_and_hazards R305). -/
def flagged : List Bool → List (Bool × Bool)
  | [] => []
  | [b] => [(true, b)]
  | b :: c :: rest => (false, b) :: flagged (c :: rest)

/-! ## The frame by its bytes -/

/-- Frame bit a: `FB[8i+k]` is conventional bit 7-k of `B[i]` (00_scope R14). -/
def frameBit (r : Regs) (a : Nat) : Bool := (r.frame.get (a / 8)).getLsbD (7 - a % 8)

/-- `uint(MemRead(a, w))`: the bits from address a on, the first most significant (00_scope R11, 20_memory R61). -/
def memNat (r : Regs) (a w : Nat) : Nat :=
  (List.range w).foldl (fun acc i => 2 * acc + (frameBit r (a + i)).toNat) 0

/-- A lane's number. -/
def laneIndex : Lane → Nat
  | .k0 => 0
  | .k1 => 1
  | .k2 => 2

/-- `uint(W[k][j])` from the bytes (20_memory R66). -/
def wordNat (r : Regs) (k : Lane) (j : Nat) : Nat :=
  (r.frame.get (24 * laneIndex k + 3 * j)).toNat * 65536 + (r.frame.get (24 * laneIndex k + 3 * j + 1)).toNat * 256 +
    (r.frame.get (24 * laneIndex k + 3 * j + 2)).toNat

/-- How many of the w low bits of a number are 1 (00_scope R13). -/
def onesNat (v w : Nat) : Nat := (List.range w).countP fun i => v.testBit i

/-- The pattern at bytes 0, 24, 48, 72, 73, 74 (42_frame_sync R171). -/
def PatternAt (byte : Nat → Byte) : Prop :=
  byte 0 = 0xD6#8 ∧ byte 24 = 0xD6#8 ∧ byte 48 = 0xD6#8 ∧ byte 72 = 0x42#8 ∧ byte 73 = 0xBB#8 ∧ byte 74 = 0x1F#8

/-- Byte i of a 600-bit sequence as a number, by division (00_scope R12, R14). -/
def byteNat (f : FrameBits) (i : Nat) : Nat := f.toNat / 256 ^ (74 - i) % 256

/-! ## Format classes and payloads by the bytes -/

/-- HOUSEKEEPING (43_message_fields R183). -/
def IsHk (r : Regs) (k : Lane) : Prop := wordNat r k 2 = 13516288
/-- SHORT (43_message_fields R184). -/
def IsShort (r : Regs) (k : Lane) : Prop := wordNat r k 2 ≠ 13516288 ∧ wordNat r k 7 = 1
/-- LONG (43_message_fields R185). -/
def IsLong (r : Regs) (k : Lane) : Prop := wordNat r k 2 ≠ 13516288 ∧ wordNat r k 7 ≠ 1

/-- The message bit the format check reads (30_encoding R110). -/
def checkAddr : Dialect → Nat
  | .s2 => 15
  | .s3 => 48
  | .c2 => 72

/-- The check bit of a lane. -/
def chkBit (r : Regs) (k : Lane) : Bool := frameBit r (192 * laneIndex k + checkAddr r.dialect)

/-- A SHORT message of a valid frame whose check bit is 0 (43_message_fields R186). -/
def ShortValid (r : Regs) (k : Lane) : Prop := r.result = .syncOk ∧ IsShort r k ∧ chkBit r k = false
/-- A LONG message of a valid frame whose check bit is 1 (43_message_fields R186). -/
def LongValid (r : Regs) (k : Lane) : Prop := r.result = .syncOk ∧ IsLong r k ∧ chkBit r k = true

/-- The first message bit of the payload range (43_message_fields R206). -/
def payloadAddr : Dialect → Nat
  | .s2 => 48
  | .s3 => 49
  | .c2 => 72

/-- The beacon field `P[a : a+w)` of a lane, a >= 1, read from the frame (20_memory R64). -/
def beaconNat (r : Regs) (k : Lane) (a w : Nat) : Nat := memNat r (192 * laneIndex k + payloadAddr r.dialect + a - 1) w

/-- The bits of a payload of `len` bits with prefix bit `pre`, left-aligned in 120 (20_memory R64,
43_message_fields R206). -/
def PayloadBitsOf (r : Regs) (k : Lane) (pre : Bool) (len : Nat) (P : PayloadBits) : Prop :=
  ∀ p, p < 120 → P.getMsbD p =
    if p = 0 then pre else if p < len then frameBit r (192 * laneIndex k + payloadAddr r.dialect + p - 1) else false

/-- A lane record after its format check, `ok` when the check bit has its expected value (43_message_fields R186). -/
def checkedRec (L : LaneOut) (ok : Bool) : LaneOut :=
  if ok then { L with fmtChecked := true, fmtValid := true }
  else { L with fmtChecked := true, fmtValid := false, payload := none, doppler := none, bcn := none }

/-- The Doppler value of a 24-bit word held as a number: its first 23 bits as two's complement
(43_message_fields R216). -/
def dopplerInt (D : Nat) : Int := if D < 8388608 then (D / 2 : Nat) else (D / 2 : Nat) - 8388608

/-- The Doppler outputs of a word held as a number (43_message_fields R216 to R218). -/
def dopplerRec (D : Nat) : DopplerOut where
  doppler     := BitVec.ofInt 23 (dopplerInt D)
  parityBit   := D.testBit 0
  parityValid := onesNat D 24 % 2 == 0
  absFreqMhz  := BitVec.ofInt 40 (406050000000 + 15 * dopplerInt D)

/-- The code of a RESULT (10_state R41). -/
def resultNat : Result → Nat
  | .none => 0
  | .syncOk => 1
  | .syncFail => 2
  | .lineViolation => 3
  | .lengthError => 4

/-- The code of a dialect (30_encoding R94). -/
def dialectNat : Dialect → Nat
  | .s2 => 0
  | .s3 => 1
  | .c2 => 2

/-! ## Ports that show nothing (10_state R55, 00_scope R16) -/

/-- The ports of an absent beacon record, field by field: every bit and every present bit 0. -/
def absentBcnPorts : BcnPorts where
  present      := false
  ts           := 0
  len          := 0
  long         := false
  raw          := 0
  formatFlag   := false
  protocolFlag := false
  countryCode  := 0
  countryKnown := false
  countryEntry := { present := false, value := 0 }
  bch1         := 0
  bch2         := { present := false, value := 0 }
  user         := false
  protocolNum  := { present := false, value := 0 }
  idKind       := 0
  idValue      := { present := false, value := 0 }
  callsign     := { present := false, value := 0 }
  callsignMiss := { present := false, value := 0 }
  posSource    := { present := false, value := 0 }
  posLatFlag   := { present := false, value := 0 }
  posLatDeg    := { present := false, value := 0 }
  posLatMin4   := { present := false, value := 0 }
  posLatMin    := { present := false, value := 0 }
  posLonFlag   := { present := false, value := 0 }
  posLonDeg    := { present := false, value := 0 }
  posLonMin4   := { present := false, value := 0 }
  posLonMin    := { present := false, value := 0 }

/-- The ports of an absent lane record, field by field: every bit and every present bit 0. -/
def absentLanePorts : LanePorts where
  present        := false
  raw            := 0
  ts             := 0
  dialect        := 0
  word0          := 0
  word1          := 0
  word2          := 0
  word3          := 0
  word4          := 0
  word5          := 0
  word6          := 0
  word7          := 0
  format         := 0
  fmtChecked     := false
  fmtValid       := false
  unsupported    := false
  w0Supported    := false
  level          := { present := false, value := 0 }
  levelCdbm      := { present := false, value := 0 }
  rt             := { present := false, value := 0 }
  latest         := { present := false, value := 0 }
  dru            := { present := false, value := 0 }
  pseudo         := { present := false, value := 0 }
  csType         := { present := false, value := 0 }
  serial         := { present := false, value := 0 }
  serialDdb      := { present := false, value := 0 }
  tcSupported    := false
  timecode       := { present := false, value := 0 }
  tcParityBit    := { present := false, value := 0 }
  tcParityValid  := { present := false, value := 0 }
  payloadLen     := { present := false, value := 0 }
  payload        := { present := false, value := 0 }
  doppler        := { present := false, value := 0 }
  dopParityBit   := { present := false, value := 0 }
  dopParityValid := { present := false, value := 0 }
  absFreqMhz     := { present := false, value := 0 }
  bcn            := absentBcnPorts

/-- A port that shows an absent value: its present bit is 0 and its value all zeros. -/
def ReadsZero {w : Nat} (p : Port w) : Prop := p.present = false ∧ p.value = 0

/-! ## What an operation leaves alone -/

/-- The next state differs from `s` in lane k's record at most, which becomes `L`: registers, every frame byte, pins,
coming cycles, the status and frame ports and the other lanes are as before. -/
def DrivesLane (a : Answer) (s : State) (k : Lane) (L : LaneOut) : Prop := a = .next (s.setLane k L)

/-- The lane's beacon record an operation finds: the one at the port, or a newly opened one. -/
def State.bcnRec (s : State) (k : Lane) (p : PayloadLen × PayloadBits) : BcnOut :=
  (s.laneRec k).bcn.getD (BcnOut.opened s.regs p)

/-- The next state differs from `s` in lane k's beacon record at most, which becomes `B`. -/
def DrivesBeacon (a : Answer) (s : State) (k : Lane) (B : BcnOut) : Prop :=
  DrivesLane a s k { s.laneRec k with bcn := some B }

/-- The next state has the registers `r` and is otherwise `s`: pins, coming cycles and output ports are as before. -/
def SetsRegs (a : Answer) (s : State) (r : Regs) : Prop := a = .next { s with regs := r }

end Sys2Proof.Machine
end

