-- ==== Sys2Proof/Certificates/Slice0/Obligations.lean ====
section
/-! DEFINITION. The statements for the provers. Each docstring names the rules it formalises; a clause that is the model's
own choice names its log entry. -/
open Sys2Proof Sys2Proof.Machine

/-! ## Encoding and selection -/

/-- Decode and encode agree: the word written for a well-formed instruction selects it, and for a command, a pair or
a frame selects nothing else (30_encoding R90, R92, R101, R102). The word chosen for a lane operation, and the lane
beside it, are the model's (assumption 9). -/
def Obligations.EncodedWordSelectsItsInstruction : Prop :=
  ∀ i : Instr, i.wellFormed = true →
    i ∈ decodeAll (encode i) ∧
      (i.format = .cmd ∨ i.format = .pair ∨ i.format = .frame → decodeAll (encode i) = [i])

/-- A legal command byte is the encoding of the one command it decodes to (30_encoding R92). -/
def Obligations.LegalByteEncodesItsCommand : Prop :=
  ∀ (c : Byte) (i : Instr), decodeCmd c = .instr i →
    i.wellFormed = true ∧ i.format = .cmd ∧ encode i = .cmd c

/-- The command map of 30_encoding R92, row by row, and the bytes that match no row. -/
def Obligations.CommandMapIsTheTable : Prop :=
  ∀ c : Byte,
    (c.toNat = 0x00 → decodeCmd c = .instr .nop) ∧
    (0x10 ≤ c.toNat → c.toNat ≤ 0x13 → decodeCmd c = .instr (.sym (c.toNat.testBit 1) (c.toNat.testBit 0))) ∧
    (0x20 ≤ c.toNat → c.toNat ≤ 0x22 → decodeCmd c = .instr (.setdialect (BitVec.ofNat 2 (c.toNat - 0x20)))) ∧
    (0x30 ≤ c.toNat → c.toNat ≤ 0x31 → decodeCmd c = .instr (.setinv (c.toNat.testBit 0))) ∧
    (0x40 ≤ c.toNat → c.toNat ≤ 0x47 →
      decodeCmd c = .instr (.ack (c.toNat.testBit 2) (c.toNat.testBit 1) (c.toNat.testBit 0))) ∧
    (c.toNat = 0x50 → decodeCmd c = .instr .srst) ∧
    (0x01 ≤ c.toNat ∧ c.toNat ≤ 0x0F ∨ 0x14 ≤ c.toNat ∧ c.toNat ≤ 0x1F ∨ 0x23 ≤ c.toNat ∧ c.toNat ≤ 0x2F ∨
      0x32 ≤ c.toNat ∧ c.toNat ≤ 0x3F ∨ 0x48 ≤ c.toNat ∧ c.toNat ≤ 0x4F ∨ 0x51 ≤ c.toNat →
      ∃ why, decodeCmd c = .illegal why)

/-- Words written out from the spec's encodings decode to their instructions: a command byte of each kind, the four
pairs, the frame F1 and the all-zero frame, a HOUSEKEEPING, a SHORT and a LONG message, a USER payload of protocol 6. -/
def Obligations.WordsOfTheSpecDecode : Prop :=
  decodeCmd 0x00#8 = .instr .nop ∧ decodeCmd 0x13#8 = .instr (.sym true true) ∧
  decodeCmd 0x12#8 = .instr (.sym true false) ∧ decodeCmd 0x11#8 = .instr (.sym false true) ∧
  decodeCmd 0x21#8 = .instr (.setdialect 1#2) ∧ decodeCmd 0x31#8 = .instr (.setinv true) ∧
  decodeCmd 0x41#8 = .instr (.ack false false true) ∧ decodeCmd 0x44#8 = .instr (.ack true false false) ∧
  decodeCmd 0x50#8 = .instr .srst ∧
  decodePair false true = .pair01 ∧ decodePair true false = .pair10 ∧
  decodePair false false = .pair00 ∧ decodePair true true = .pair11 ∧
  decodeFrame (0xD60BAA2468AD4CD9C666FF56789D55556D5AFF9F8E000001#192 ++
    0xD6F815FFFFFED3C77806E57F2ACAAF37A65A08B4B9002710#192 ++ 0xD60000000003CE3E00800000000000000000000055000001#192 ++
    0x42BB1F#24) = .syncMatch ∧
  decodeFrame 0#600 = .syncMiss ∧
  fmtOp .k0 (classify 0x000000000000CE3E00000000000000000000000000000001#192) = .fmtHk .k0 ∧
  fmtOp .k0 (classify 0xD60BAA2468AD4CD9C666FF56789D55556D5AFF9F8E000001#192) = .fmtShort .k0 ∧
  fmtOp .k0 (classify 0xD6F815FFFFFED3C77806E57F2ACAAF37A65A08B4B9002710#192) = .fmtLong .k0 ∧
  protoOp .k0 0x401800000000000000000000000000#120 = .protoUser6 .k0 ∧
  protoOp .k0 0x337FAB3C4EAAAAB6AD7FCF00000000#120 = .protoStdnat .k0

/-- The classification by word2 and then word7, as numbers and as the mask and match of 30_encoding R109, under every
dialect. -/
def Obligations.ClassFollowsWordTwoThenWordSeven : Prop :=
  ∀ (k : Lane) (d : Dialect) (M : MsgBits),
    (.fmtHk k ∈ decodeMsg k d M ↔ M.toNat / 2 ^ 120 % 2 ^ 24 = 13516288) ∧
    (.fmtShort k ∈ decodeMsg k d M ↔ M.toNat / 2 ^ 120 % 2 ^ 24 ≠ 13516288 ∧ M.toNat % 2 ^ 24 = 1) ∧
    (.fmtLong k ∈ decodeMsg k d M ↔ M.toNat / 2 ^ 120 % 2 ^ 24 ≠ 13516288 ∧ M.toNat % 2 ^ 24 ≠ 1) ∧
    (M.toNat / 2 ^ 120 % 2 ^ 24 = 13516288 ↔ M &&& (0xFFFFFF#192 <<< 120) = 0xCE3E00#192 <<< 120) ∧
    (M.toNat % 2 ^ 24 = 1 ↔ M &&& 0xFFFFFF#192 = 1#192)

/-- The frame pattern selects SYNC.MATCH by its mask and match, which test the six bytes 0, 24, 48, 72, 73, 74 and no
other (30_encoding R102, 42_frame_sync R171). -/
def Obligations.SyncPatternTestsSixBytes : Prop :=
  ∀ f : FrameBits,
    (decodeFrame f = .syncMatch ↔
      f &&& (0xFF#600 <<< 592 ||| 0xFF#600 <<< 400 ||| 0xFF#600 <<< 208 ||| 0xFFFFFF#600) =
        (0xD6#600 <<< 592 ||| 0xD6#600 <<< 400 ||| 0xD6#600 <<< 208 ||| 0x42BB1F#600)) ∧
    (decodeFrame f = .syncMatch ↔
      byteNat f 0 = 0xD6 ∧ byteNat f 24 = 0xD6 ∧ byteNat f 48 = 0xD6 ∧ byteNat f 72 = 0x42 ∧ byteNat f 73 = 0xBB ∧
        byteNat f 74 = 0x1F) ∧
    (decodeFrame f = .syncMiss ↔ decodeFrame f ≠ .syncMatch)

/-- The protocol operation follows P[1] and, when it is 1, P[11:14) (30_encoding R113). -/
def Obligations.ProtocolFollowsFlagAndNumber : Prop :=
  ∀ (k : Lane) (len : PayloadLen) (P : PayloadBits),
    (.protoStdnat k ∈ decodePayload k len P ↔ P.toNat / 2 ^ 118 % 2 = 0) ∧
    (.protoUser0 k ∈ decodePayload k len P ↔ P.toNat / 2 ^ 118 % 2 = 1 ∧ P.toNat / 2 ^ 106 % 8 = 0) ∧
    (.protoUser1 k ∈ decodePayload k len P ↔ P.toNat / 2 ^ 118 % 2 = 1 ∧ P.toNat / 2 ^ 106 % 8 = 1) ∧
    (.protoUser2 k ∈ decodePayload k len P ↔ P.toNat / 2 ^ 118 % 2 = 1 ∧ P.toNat / 2 ^ 106 % 8 = 2) ∧
    (.protoUser3 k ∈ decodePayload k len P ↔ P.toNat / 2 ^ 118 % 2 = 1 ∧ P.toNat / 2 ^ 106 % 8 = 3) ∧
    (.protoUser4 k ∈ decodePayload k len P ↔ P.toNat / 2 ^ 118 % 2 = 1 ∧ P.toNat / 2 ^ 106 % 8 = 4) ∧
    (.protoUser5 k ∈ decodePayload k len P ↔ P.toNat / 2 ^ 118 % 2 = 1 ∧ P.toNat / 2 ^ 106 % 8 = 5) ∧
    (.protoUser6 k ∈ decodePayload k len P ↔ P.toNat / 2 ^ 118 % 2 = 1 ∧ P.toNat / 2 ^ 106 % 8 = 6) ∧
    (.protoUser7 k ∈ decodePayload k len P ↔ P.toNat / 2 ^ 118 % 2 = 1 ∧ P.toNat / 2 ^ 106 % 8 = 7)

/-! ## The step -/

/-- A step runs the decoded command: when the byte on the port decodes to `i`, the step is `exec i`, after which the
operations that each lane's registers select drive the ports through `exec` and the host's next cycle comes to the
pins (40_host_commands R139, 43_message_fields R224). How the pins and the coming cycles stand in State is the
model's (assumption 2). -/
def Obligations.StepRunsTheDecodedCommand : Prop :=
  (∀ (s : State) (i : Instr), s.pins.rst = false → s.pins.cmdValid = true → decodeCmd s.pins.cmd = .instr i →
    step s = andThen (exec i s) fun t => andThen (settle t) fun u => .next u.advance) ∧
  (∀ s : State, settle s = runOps (s.regs.laneOps .k0 ++ s.regs.laneOps .k1 ++ s.regs.laneOps .k2) s.driveFrame) ∧
  (∀ (r : Regs) (k : Lane) (i : Instr), i ∈ r.laneOps k ↔
    r.result = .syncOk ∧ (i ∈ decodeAll (.msg k r.dialect (r.msg k)) ∨
      ∃ p, r.payload k = some p ∧ i ∈ decodeAll (.payload k p.1 p.2)))

/-- The step function assembled (40_host_commands R137, R138, R139): total; `rst` first; no command, no change; the
decoded command's registers; an illegal byte sets CMDERR and nothing else; `now` is read only by a SYM that ends a
block. That a step also brings the host's next cycle to the pins is the model's (assumption 2). -/
def Obligations.StepFunctionAssembled : Prop :=
  ∀ s : State, Goes (step s) fun t =>
    (t.pins = s.script.headD Pins.idle ∧ t.script = s.script.tail) ∧
    (s.pins.rst = true → AllZero t.regs) ∧
    (s.pins.rst = false → s.pins.cmdValid = false → t.regs = s.regs) ∧
    (∀ i, s.pins.rst = false → s.pins.cmdValid = true → decodeCmd s.pins.cmd = .instr i →
      Goes (exec i s) fun u => t.regs = u.regs) ∧
    (∀ why, s.pins.rst = false → s.pins.cmdValid = true → decodeCmd s.pins.cmd = .illegal why →
      t.regs = { s.regs with cmderr := true }) ∧
    (∀ n : Timestamp, (∀ b, s.pins.instr ≠ some (.sym true b)) →
      Goes (step { s with pins := { s.pins with now := n } }) fun u => u.regs = t.regs)

/-- Only a block end, a reset and a commit write FRAME; every other instruction leaves every byte of it
(10_state R31; 41_manchester R158, R159, R161; assumption 11). -/
def Obligations.OtherInstructionsLeaveTheFrame : Prop :=
  ∀ (i : Instr) (s : State), (∀ b, i ≠ .sym true b) → i ≠ .srst → i ≠ .syncMatch → i ≠ .syncMiss →
    Goes (exec i s) fun t => ∀ a, t.regs.frame.get a = s.regs.frame.get a

/-- A message or beacon operation changes no state: no register, no flag, no frame byte, no status or frame port
(10_state R44, 60_exceptions R284). -/
def Obligations.LaneOperationsChangeNoState : Prop :=
  ∀ (i : Instr) (s : State), i.format = .msg ∨ i.format = .payload →
    Goes (exec i s) fun t => t.regs = s.regs ∧ t.pins = s.pins ∧ t.script = s.script ∧
      (∀ a, t.regs.frame.get a = s.regs.frame.get a) ∧
      t.out = { s.out with lane0 := t.out.lane0, lane1 := t.out.lane1, lane2 := t.out.lane2 }

/-- An operation the data do not select changes nothing: a lane operation outside the registers' selection, a pair
operation away from its pair, a sync operation away from its commit (43_message_fields R224). The guard is the
model's way of running one operation alone (assumption 9). -/
def Obligations.UnselectedOperationsChangeNothing : Prop :=
  (∀ (i : Instr) (s : State), i.format = .msg ∨ i.format = .payload → i ∉ s.regs.ops → exec i s = .next s) ∧
  (∀ (a b : Bool) (s : State),
    s.regs.hold ≠ a ∨ s.regs.symcnt.toNat % 2 = 0 ∨ 1200 ≤ s.regs.symcnt.toNat → exec (decodePair a b) s = .next s) ∧
  (∀ s : State, s.regs.symcnt.toNat ≠ 1199 ∨ s.regs.violAct = true ∨ decodeFrame s.regs.wbuf = .syncMiss →
    exec .syncMatch s = .next s) ∧
  (∀ s : State, s.regs.symcnt.toNat ≠ 1199 ∨ s.regs.violAct = true ∨ decodeFrame s.regs.wbuf = .syncMatch →
    exec .syncMiss s = .next s)

/-- Reset leaves every bit of state zero, by the pin and by SRST alike (10_state R48, 40_host_commands R136,
70_reset_and_hazards R302). -/
def Obligations.ResetClearsEveryItem : Prop :=
  AllZero State.reset.regs ∧
  (∀ s : State, SetsRegs (exec .srst s) s State.reset.regs) ∧
  (∀ s : State, s.pins.resets = true → Goes (step s) fun t => AllZero t.regs ∧ t.regs = State.reset.regs)

/-- The outputs in the reset state, after either reset (70_reset_and_hazards R301). -/
def Obligations.ResetShowsNothing : Prop :=
  (NothingShown State.reset.out ∧ State.reset.out.irq = false ∧ State.reset.out.status = 0#6 ∧
    State.reset.out.cfg = 0#3 ∧ State.reset.out.frameTs = 0 ∧ State.reset.out.frameDialect = 0#2) ∧
  ∀ s : State, s.pins.resets = true → Goes (step s) fun t =>
    NothingShown t.out ∧ t.out.irq = false ∧ t.out.status = 0#6 ∧ t.out.cfg = 0#3 ∧ t.out.frameTs = 0 ∧
      t.out.frameDialect = 0#2

/-- After every step the ports that the selected operations drove are, field by field, the record
Decode(FRAME, STATUS, CFG, TSTAMP) written from the tables of 10_state R50 to R54. That the ports stand in State is
the model's (assumption 1). -/
def Obligations.PortsAreTheDecodeOfTheRegisters : Prop :=
  ∀ s : State, Goes (step s) fun t => Settled t

/-- The outputs depend on FRAME, STATUS, CFG and TSTAMP and on nothing else: not on WBUF, the line decoder's hidden
state, the command or the history (10_state R50). -/
def Obligations.OutputsDependOnFourItemsOnly : Prop :=
  ∀ s u : State, Goes (step s) fun t => Goes (step u) fun v =>
    (∀ i, t.regs.frame.get i = v.regs.frame.get i) → t.regs.statusWord = v.regs.statusWord →
      t.regs.cfgWord = v.regs.cfgWord → t.regs.tstamp = v.regs.tstamp → t.out = v.out

/-- Every step keeps the invariant of 10_state R49 and the canonical form of the frame memory (assumption 4). -/
def Obligations.StepKeepsTheInvariant : Prop :=
  ∀ s : State, Inv s.regs → Goes (step s) fun t => Inv t.regs

/-- The reset state meets the invariant (10_state R48, R49). -/
def Obligations.ResetMeetsTheInvariant : Prop := Inv State.reset.regs

/-- The status and frame outputs after every step (10_state R51, R52; 60_exceptions R280). -/
def Obligations.StatusAndFramePorts : Prop :=
  ∀ s : State, Goes (step s) fun t =>
    t.out.irq = t.regs.newFlag ∧
    t.out.status.toNat =
      8 * resultNat t.regs.result + 4 * t.regs.newFlag.toNat + 2 * t.regs.ovr.toNat + t.regs.cmderr.toNat ∧
    t.out.cfg.toNat = 2 * dialectNat t.regs.dialect + t.regs.inv.toNat ∧
    (t.out.framePresent = true ↔ t.regs.result = .syncOk ∨ t.regs.result = .syncFail) ∧
    (t.out.frameValid = true ↔ t.regs.result = .syncOk) ∧
    t.out.frameTs = t.regs.tstamp ∧
    t.out.frameLen.toNat = (if t.regs.result = .syncOk ∨ t.regs.result = .syncFail then 75 else 0) ∧
    t.out.frameDialect.toNat = dialectNat t.regs.dialect ∧
    (∀ a, a < 600 → t.out.frameBytes.getMsbD a =
      if t.regs.result = .syncOk ∨ t.regs.result = .syncFail then frameBit t.regs a else false) ∧
    t.out.nMsgs.toNat = (if t.regs.result = .syncOk then 3 else 0) ∧
    (∀ k, (t.out.lane k).isSome = true ↔ t.regs.result = .syncOk)

/-! ## Host commands -/

/-- NOP: the next state equals the current one; a step that presents NOP or no command leaves every register
(40_host_commands R130). -/
def Obligations.NopChangesNothing : Prop :=
  (∀ s : State, exec .nop s = .next s) ∧
  (∀ s : State, s.pins.rst = false → s.pins.cmdValid = false ∨ s.pins.cmd = 0x00#8 →
    Goes (step s) fun t => t.regs = s.regs)

/-- SYM without `last` at an even position below 1200 holds the symbol and counts it; at position 0 it also loads
INV_ACT and clears VIOL_ACT (40_host_commands R131; 10_state R36, R37, R38). -/
def Obligations.SymAtAnEvenPositionIsHeld : Prop :=
  ∀ (s : State) (b : Bool), s.regs.symcnt.toNat < 1200 → s.regs.symcnt.toNat % 2 = 0 →
    SetsRegs (exec (.sym false b) s) s
      { s.regs with
        hold    := b
        symcnt  := BitVec.ofNat 11 (s.regs.symcnt.toNat + 1)
        invAct  := if s.regs.symcnt.toNat = 0 then s.regs.inv else s.regs.invAct
        violAct := if s.regs.symcnt.toNat = 0 then false else s.regs.violAct }

/-- SYM without `last` at an odd position below 1200 completes pair (SYMCNT - 1)/2: unequal symbols write the first
one xor INV_ACT to that bit of WBUF, equal symbols set VIOL_ACT (40_host_commands R131; 41_manchester R155). -/
def Obligations.SymAtAnOddPositionCompletesAPair : Prop :=
  ∀ (s : State) (b : Bool), s.regs.symcnt.toNat < 1200 → s.regs.symcnt.toNat % 2 = 1 →
    Goes (exec (.sym false b) s) fun t =>
      t = { s with regs := { s.regs with
              symcnt  := BitVec.ofNat 11 (s.regs.symcnt.toNat + 1)
              wbuf    := t.regs.wbuf
              violAct := s.regs.violAct || (s.regs.hold == b) } } ∧
      ∀ j, j < 600 → t.regs.wbuf.getMsbD j =
        if s.regs.hold ≠ b ∧ j = (s.regs.symcnt.toNat - 1) / 2 then s.regs.hold ^^ s.regs.invAct
        else s.regs.wbuf.getMsbD j

/-- Over-length: at SYMCNT 1200 a symbol without `last` changes no state at all, and the one with `last` is dropped as
a symbol and ends the block with LENGTH_ERROR; nothing received is committed and the next block starts at 0
(40_host_commands R132). -/
def Obligations.OverlengthSymbolsAreDropped : Prop :=
  ∀ (s : State) (b : Bool), s.regs.symcnt.toNat = 1200 →
    exec (.sym false b) s = .next s ∧
    SetsRegs (exec (.sym true b) s) s
      { s.regs with
        frame   := []
        result  := .lengthError
        ovr     := s.regs.ovr || s.regs.newFlag
        newFlag := true
        tstamp  := s.pins.now
        symcnt  := 0 }

/-- SYM.L at any count but 1199 clears the held frame and records LENGTH_ERROR, whatever VIOL_ACT is; its symbol acts
as that of any SYM at its position (41_manchester R161). -/
def Obligations.WrongLengthIsALengthError : Prop :=
  ∀ (s : State) (b : Bool), s.regs.symcnt.toNat ≤ 1200 → s.regs.symcnt.toNat ≠ 1199 →
    Goes (exec (.sym true b) s) fun t =>
      t = { s with regs := { s.regs with
              frame   := t.regs.frame
              wbuf    := t.regs.wbuf
              hold    := t.regs.hold
              invAct  := t.regs.invAct
              violAct := t.regs.violAct
              result  := .lengthError
              ovr     := s.regs.ovr || s.regs.newFlag
              newFlag := true
              tstamp  := s.pins.now
              symcnt  := 0 } } ∧
      (∀ a, t.regs.frame.get a = 0#8) ∧
      t.regs.hold = (if s.regs.symcnt.toNat % 2 = 0 ∧ s.regs.symcnt.toNat < 1200 then b else s.regs.hold) ∧
      t.regs.invAct = (if s.regs.symcnt.toNat = 0 then s.regs.inv else s.regs.invAct) ∧
      t.regs.violAct =
        (if s.regs.symcnt.toNat = 0 then false
         else s.regs.violAct || (decide (s.regs.symcnt.toNat % 2 = 1) && s.regs.hold == b)) ∧
      ∀ j, j < 600 → t.regs.wbuf.getMsbD j =
        if s.regs.symcnt.toNat % 2 = 1 ∧ s.regs.hold ≠ b ∧ j = (s.regs.symcnt.toNat - 1) / 2
        then s.regs.hold ^^ s.regs.invAct else s.regs.wbuf.getMsbD j

/-- SYM.L at count 1199 decodes pair 599 and judges the block: with a violation in any pair FRAME is cleared and
RESULT is LINE_VIOLATION; otherwise FRAME spells WBUF, bit 599 included, and RESULT is SYNC_OK exactly when the six
bytes match, else SYNC_FAIL (41_manchester R158, R159). -/
def Obligations.FullBlockIsCommittedOrCleared : Prop :=
  ∀ (s : State) (b : Bool), s.regs.symcnt.toNat = 1199 →
    Goes (exec (.sym true b) s) fun t =>
      t = { s with regs := { s.regs with
              frame   := t.regs.frame
              wbuf    := t.regs.wbuf
              violAct := s.regs.violAct || (s.regs.hold == b)
              result  := t.regs.result
              ovr     := s.regs.ovr || s.regs.newFlag
              newFlag := true
              tstamp  := s.pins.now
              symcnt  := 0 } } ∧
      (∀ j, j < 600 → t.regs.wbuf.getMsbD j =
        if s.regs.hold ≠ b ∧ j = 599 then s.regs.hold ^^ s.regs.invAct else s.regs.wbuf.getMsbD j) ∧
      (if s.regs.violAct = true ∨ s.regs.hold = b then
        t.regs.result = .lineViolation ∧ ∀ a, t.regs.frame.get a = 0#8
      else
        (∀ j, j < 600 → frameBit t.regs j = t.regs.wbuf.getMsbD j) ∧
        (PatternAt t.regs.frame.get → t.regs.result = .syncOk) ∧
        (¬ PatternAt t.regs.frame.get → t.regs.result = .syncFail))

/-- BlockEndCommon on the registers, and that every SYM with `last` performs it: OVR takes in NEW, NEW is set, TSTAMP
samples `now`, SYMCNT is 0, CFG and CMDERR stay (41_manchester R162). -/
def Obligations.EveryBlockEndRecordsItsOutcome : Prop :=
  (∀ (now : Timestamp) (res : Result) (r : Regs), blockEndCommon now res r =
    { r with ovr := r.ovr || r.newFlag, newFlag := true, result := res, tstamp := now, symcnt := 0 }) ∧
  (∀ (s : State) (b : Bool), s.regs.symcnt.toNat ≤ 1200 →
    Goes (exec (.sym true b) s) fun t =>
      t.regs.ovr = (s.regs.ovr || s.regs.newFlag) ∧ t.regs.newFlag = true ∧ t.regs.result ≠ .none ∧
      t.regs.tstamp = s.pins.now ∧ t.regs.symcnt = 0 ∧ t.regs.dialect = s.regs.dialect ∧ t.regs.inv = s.regs.inv ∧
      t.regs.cmderr = s.regs.cmderr)

/-- SETDIALECT with code 0, 1 or 2 sets CFG.DIALECT and nothing else; the term with the reserved code 3, which no byte
decodes to, acts as the illegal byte 0x23 (40_host_commands R133, R137; 30_encoding R94). -/
def Obligations.SetdialectSetsTheDialectOnly : Prop :=
  (∀ (s : State) (d : Dialect),
    SetsRegs (exec (.setdialect (BitVec.ofNat 2 (dialectNat d))) s) s { s.regs with dialect := d }) ∧
  (∀ s : State, SetsRegs (exec (.setdialect 3#2) s) s { s.regs with cmderr := true })

/-- SETINV sets CFG.INV and nothing else, INV_ACT included; the next block that starts uses the new value
(40_host_commands R134). -/
def Obligations.SetinvSetsInvOnly : Prop :=
  (∀ (s : State) (v : Bool), SetsRegs (exec (.setinv v) s) s { s.regs with inv := v }) ∧
  (∀ (s : State) (v b : Bool), s.regs.symcnt.toNat = 0 →
    Goes (runOps [.setinv v, .sym false b] s) fun t => t.regs.invAct = v) ∧
  (∀ (s : State) (v b : Bool), 0 < s.regs.symcnt.toNat → s.regs.symcnt.toNat ≤ 1200 →
    Goes (runOps [.setinv v, .sym false b] s) fun t => t.regs.invAct = s.regs.invAct)

/-- ACK clears the flags its mask names and changes nothing else (40_host_commands R135). -/
def Obligations.AckClearsTheMaskedFlags : Prop :=
  ∀ (s : State) (c b a : Bool),
    SetsRegs (exec (.ack c b a) s) s
      { s.regs with
        newFlag := s.regs.newFlag && !a
        ovr     := s.regs.ovr && !b
        cmderr  := s.regs.cmderr && !c }

/-- A dialect change on a held frame: from the next cycle the new code shows and every output is that of the new
dialect, while validity, bytes, timestamp and each lane's raw bits, words, class and `fmt_checked` stay
(42_frame_sync R176, 43_message_fields R220). -/
def Obligations.DialectChangeRederivesTheHeldFrame : Prop :=
  ∀ (s : State) (d : Dialect), Settled s → s.pins.instr = some (.setdialect (BitVec.ofNat 2 (dialectNat d))) →
    Goes (step s) fun t =>
      t.regs = { s.regs with dialect := d } ∧ Settled t ∧ t.out.frameDialect.toNat = dialectNat d ∧
      t.out.frameValid = s.out.frameValid ∧ t.out.frameBytes = s.out.frameBytes ∧ t.out.frameTs = s.out.frameTs ∧
      ∀ k L, s.out.lane k = some L → ∃ L', t.out.lane k = some L' ∧ L'.dialect.toNat = dialectNat d ∧
        L'.raw = L.raw ∧ L'.words = L.words ∧ L'.format = L.format ∧ L'.fmtChecked = L.fmtChecked ∧ L'.ts = L.ts

/-! ## Blocks -/

/-- The serial form equals the block function: a block of any length delivered by SYM commands from SYMCNT 0 records
BlockOutcome(s, CFG.INV), FRAME spells the frame it gives, and the other registers a block end names are as it says
(41_manchester R160, 00_scope R21). -/
def Obligations.SerialBlockEqualsTheBlockFunction : Prop :=
  ∀ (s : State) (ss : List Bool), s.regs.symcnt.toNat = 0 → ss ≠ [] →
    Goes (runOps (blockCommands ss) s) fun t =>
      t.regs.result = (blockOutcome ss s.regs.inv).1 ∧ t.regs.frame.fb = (blockOutcome ss s.regs.inv).2 ∧
      t.regs.symcnt = 0 ∧ t.regs.newFlag = true ∧ t.regs.ovr = (s.regs.ovr || s.regs.newFlag) ∧
      t.regs.tstamp = s.pins.now ∧ t.regs.dialect = s.regs.dialect ∧ t.regs.inv = s.regs.inv ∧
      t.regs.cmderr = s.regs.cmderr ∧ t.pins = s.pins ∧ t.script = s.script ∧ t.out = s.out

/-- A block delivered at the command port, cycle by cycle, with any commands but resets interleaved (idle cycles, NOP,
SETDIALECT, SETINV, ACK, illegal bytes), records BlockOutcome of its symbols under the CFG.INV of its first symbol,
and the ports show the decode of it (41_manchester R152, 00_scope R21). -/
def Obligations.InterleavedBlockRecordsItsOutcome : Prop :=
  ∀ (s : State) (p : Pins) (ps : List Pins) (ss : List Bool), s.regs.symcnt.toNat = 0 →
    p.symbol.isSome = true → (∀ q ∈ p :: ps, q.resets = false) → (p :: ps).filterMap Pins.symbol = flagged ss →
    Goes (runCycles (p :: ps) s) fun t =>
      t.regs.result = (blockOutcome ss s.regs.inv).1 ∧ t.regs.frame.fb = (blockOutcome ss s.regs.inv).2 ∧
      t.regs.symcnt = 0 ∧ Settled t

/-- ManchesterEncode is the inverse of ManchesterDecode; the other inversion and the inverted sequence both give the
complement; a sequence with a pair of equal symbols gives nothing (41_manchester R163). -/
def Obligations.ManchesterCodeIsInvertible : Prop :=
  (∀ (inv : Bool) (d : List Bool), manchesterDecode inv (manchesterEncode inv d) = some d) ∧
  (∀ (inv : Bool) (ss d : List Bool), manchesterDecode inv ss = some d → manchesterEncode inv d = ss) ∧
  (∀ ss : List Bool, manchesterDecode true ss = (manchesterDecode false ss).map (List.map not)) ∧
  (∀ (inv : Bool) (ss d : List Bool), manchesterDecode inv ss = some d →
    manchesterDecode inv (ss.map not) = some (d.map not)) ∧
  (∀ (inv : Bool) (ss : List Bool), ss.length % 2 = 0 →
    (manchesterDecode inv ss = none ↔ ∃ j, 2 * j + 1 < ss.length ∧ ss[2 * j]? = ss[2 * j + 1]?))

/-! ## Pair and sync operations -/

/-- PAIR.01 writes INV_ACT and PAIR.10 its complement to WBUF at the pair index, and nothing else
(41_manchester R153, R154). -/
def Obligations.LegalPairWritesItsBit : Prop :=
  ∀ s : State, s.regs.symcnt.toNat < 1200 → s.regs.symcnt.toNat % 2 = 1 →
    (s.regs.hold = false → Goes (exec .pair01 s) fun t =>
      t = { s with regs := { s.regs with wbuf := t.regs.wbuf } } ∧
      ∀ j, j < 600 → t.regs.wbuf.getMsbD j =
        if j = (s.regs.symcnt.toNat - 1) / 2 then s.regs.invAct else s.regs.wbuf.getMsbD j) ∧
    (s.regs.hold = true → Goes (exec .pair10 s) fun t =>
      t = { s with regs := { s.regs with wbuf := t.regs.wbuf } } ∧
      ∀ j, j < 600 → t.regs.wbuf.getMsbD j =
        if j = (s.regs.symcnt.toNat - 1) / 2 then !s.regs.invAct else s.regs.wbuf.getMsbD j)

/-- PAIR.00 and PAIR.11 set VIOL_ACT and change nothing else: WBUF is not written (41_manchester R156, R157). -/
def Obligations.ViolatingPairSetsViolAct : Prop :=
  ∀ s : State, s.regs.symcnt.toNat < 1200 → s.regs.symcnt.toNat % 2 = 1 →
    (s.regs.hold = false → SetsRegs (exec .pair00 s) s { s.regs with violAct := true }) ∧
    (s.regs.hold = true → SetsRegs (exec .pair11 s) s { s.regs with violAct := true })

/-- SYM performs the operations its data select: at an odd position the pair operation of the held and the arriving
symbol, and at the end of a good block the sync operation of the decoded bits, then BlockEndCommon
(40_host_commands R131; 30_encoding R101, R102; 43_message_fields R224). -/
def Obligations.SymPerformsTheSelectedOperations : Prop :=
  (∀ (s : State) (b : Bool), s.regs.symcnt.toNat < 1200 → s.regs.symcnt.toNat % 2 = 1 →
    Goes (exec (decodePair s.regs.hold b) s) fun u => Goes (exec (.sym false b) s) fun t =>
      t.regs = { u.regs with symcnt := BitVec.ofNat 11 (s.regs.symcnt.toNat + 1) }) ∧
  (∀ (s : State) (b : Bool), s.regs.symcnt.toNat = 1199 → s.regs.violAct = false → s.regs.hold ≠ b →
    Goes (exec (decodePair s.regs.hold b) s) fun u => Goes (exec (decodeFrame u.regs.wbuf) u) fun v =>
      Goes (exec (.sym true b) s) fun t => t.regs = blockEndCommon s.pins.now v.regs.result v.regs)

/-- SYNC.MATCH at a commit whose six bytes match: RESULT is SYNC_OK, FRAME spells the committed bits, the frame ports
show a valid frame with three messages, and each lane record is present with its own slice, TSTAMP and the dialect
(42_frame_sync R172). -/
def Obligations.SyncMatchShowsThreeMessages : Prop :=
  ∀ s : State, s.regs.symcnt.toNat = 1199 → s.regs.violAct = false → decodeFrame s.regs.wbuf = .syncMatch →
    Goes (exec .syncMatch s) fun t =>
      t.regs = { s.regs with frame := t.regs.frame, result := .syncOk } ∧
      (∀ j, j < 600 → frameBit t.regs j = s.regs.wbuf.getMsbD j) ∧ t.pins = s.pins ∧ t.script = s.script ∧
      t.out.framePresent = true ∧ t.out.frameValid = true ∧ t.out.nMsgs = 3#2 ∧
      ∀ k, ∃ L, t.out.lane k = some L ∧ L.ts = s.regs.tstamp ∧ L.dialect.toNat = dialectNat s.regs.dialect ∧
        ∀ i, i < 192 → L.raw.getMsbD i = s.regs.wbuf.getMsbD (192 * laneIndex k + i)

/-- SYNC.MISS at a commit whose six bytes do not match: RESULT is SYNC_FAIL, FRAME still receives the bits, the frame
ports show the bytes of an invalid frame, and no lane record is present (42_frame_sync R173). -/
def Obligations.SyncMissShowsNoMessage : Prop :=
  ∀ s : State, s.regs.symcnt.toNat = 1199 → s.regs.violAct = false → decodeFrame s.regs.wbuf = .syncMiss →
    Goes (exec .syncMiss s) fun t =>
      t.regs = { s.regs with frame := t.regs.frame, result := .syncFail } ∧
      (∀ j, j < 600 → frameBit t.regs j = s.regs.wbuf.getMsbD j) ∧ t.pins = s.pins ∧ t.script = s.script ∧
      t.out.framePresent = true ∧ t.out.frameValid = false ∧ t.out.nMsgs = 0#2 ∧
      t.out.frameBytes = s.regs.wbuf ∧ ∀ k, t.out.lane k = none

/-! ## Message operations -/

/-- MSG.WORDS: word j is the number its three bytes spell, the first most significant (43_message_fields R181,
20_memory R66). -/
def Obligations.WordsAreBigEndian : Prop :=
  ∀ (s : State) (k : Lane), s.regs.result = .syncOk →
    DrivesLane (exec (.msgWords k) s) s k
      { s.laneRec k with
        words :=
          { w0 := BitVec.ofNat 24 (wordNat s.regs k 0)
            w1 := BitVec.ofNat 24 (wordNat s.regs k 1)
            w2 := BitVec.ofNat 24 (wordNat s.regs k 2)
            w3 := BitVec.ofNat 24 (wordNat s.regs k 3)
            w4 := BitVec.ofNat 24 (wordNat s.regs k 4)
            w5 := BitVec.ofNat 24 (wordNat s.regs k 5)
            w6 := BitVec.ofNat 24 (wordNat s.regs k 6)
            w7 := BitVec.ofNat 24 (wordNat s.regs k 7) } }

/-- FMT.HK, FMT.SHORT and FMT.LONG drive the class their word values select, under every dialect; HOUSEKEEPING skips
the check and leaves the lane without payload, Doppler outputs and beacon record (43_message_fields R182 to R186). -/
def Obligations.FormatClassIsDriven : Prop :=
  ∀ (s : State) (k : Lane), s.regs.result = .syncOk →
    (IsHk s.regs k → DrivesLane (exec (.fmtHk k) s) s k
      { s.laneRec k with
        format := 2#2, fmtChecked := false, fmtValid := false, payload := none, doppler := none, bcn := none }) ∧
    (IsShort s.regs k → DrivesLane (exec (.fmtShort k) s) s k { s.laneRec k with format := 0#2 }) ∧
    (IsLong s.regs k → DrivesLane (exec (.fmtLong k) s) s k { s.laneRec k with format := 1#2 })

/-- The six format checks: the designated message bit has its expected value or the message is FormatInvalid
(43_message_fields R187 to R192). -/
def Obligations.FormatChecksReadTheirBit : Prop :=
  ∀ (s : State) (k : Lane), s.regs.result = .syncOk →
    (s.regs.dialect = .s2 → IsShort s.regs k → DrivesLane (exec (.chkS2Short k) s) s k
      (checkedRec (s.laneRec k) (frameBit s.regs (192 * laneIndex k + 15) == false))) ∧
    (s.regs.dialect = .s2 → IsLong s.regs k → DrivesLane (exec (.chkS2Long k) s) s k
      (checkedRec (s.laneRec k) (frameBit s.regs (192 * laneIndex k + 15) == true))) ∧
    (s.regs.dialect = .s3 → IsShort s.regs k → DrivesLane (exec (.chkS3Short k) s) s k
      (checkedRec (s.laneRec k) (frameBit s.regs (192 * laneIndex k + 48) == false))) ∧
    (s.regs.dialect = .s3 → IsLong s.regs k → DrivesLane (exec (.chkS3Long k) s) s k
      (checkedRec (s.laneRec k) (frameBit s.regs (192 * laneIndex k + 48) == true))) ∧
    (s.regs.dialect = .c2 → IsShort s.regs k → DrivesLane (exec (.chkC2Short k) s) s k
      (checkedRec (s.laneRec k) (frameBit s.regs (192 * laneIndex k + 72) == false))) ∧
    (s.regs.dialect = .c2 → IsLong s.regs k → DrivesLane (exec (.chkC2Long k) s) s k
      (checkedRec (s.laneRec k) (frameBit s.regs (192 * laneIndex k + 72) == true)))

/-- The cross-check flags of every lane of a valid frame after every step (43_message_fields R186). -/
def Obligations.FormatValidityOfEveryLane : Prop :=
  ∀ s : State, Goes (step s) fun t => t.regs.result = .syncOk → ∀ k, ∃ L, t.out.lane k = some L ∧
    (L.fmtChecked = true ↔ ¬ IsHk t.regs k) ∧
    (L.fmtValid = true ↔ ShortValid t.regs k ∨ LongValid t.regs k) ∧
    (L.fmtValid = false → L.payload = none ∧ L.doppler = none ∧ L.bcn = none)

/-- The word0 fields both SARSAT dialects share: level = word0 mod 64 with its level in hundredths of a dBm, `rt`
bit 6 and `latest` bit 7 of word0 as a number (43_message_fields R193, R194, R195). -/
def Obligations.SharedWordZeroFields : Prop :=
  ∀ (s : State) (k : Lane), s.regs.result = .syncOk → s.regs.dialect ≠ .c2 →
    DrivesLane (exec (.w0Level k) s) s k
      { s.laneRec k with
        level := some
          { level     := BitVec.ofNat 6 (wordNat s.regs k 0 % 64)
            levelCdbm := BitVec.ofInt 16 (55 * (wordNat s.regs k 0 % 64 : Nat) - 14000) } } ∧
    DrivesLane (exec (.w0Rt k) s) s k { s.laneRec k with rt := some ((wordNat s.regs k 0).testBit 6) } ∧
    DrivesLane (exec (.w0Latest k) s) s k { s.laneRec k with latest := some ((wordNat s.regs k 0).testBit 7) }

/-- The word0 fields of SARSAT-SARP-2: `dru` in bits 8:7, the format check bit and `latest`, and `pseudo` bit 11
(43_message_fields R196, R197). -/
def Obligations.WordZeroFieldsOfSarp2 : Prop :=
  ∀ (s : State) (k : Lane), s.regs.result = .syncOk → s.regs.dialect = .s2 →
    DrivesLane (exec (.w0S2Dru k) s) s k
      { s.laneRec k with
        dru := some (BitVec.ofNat 2 (2 * (chkBit s.regs k).toNat + ((wordNat s.regs k 0).testBit 7).toNat)) } ∧
    DrivesLane (exec (.w0S2Pseudo k) s) s k { s.laneRec k with pseudo := some ((wordNat s.regs k 0).testBit 11) }

/-- The word0 fields of SARSAT-SARP-3: `type` bit 8, and `serial` bits 11:9 with its entry of LEVEL_ROM
(43_message_fields R198, R199). -/
def Obligations.WordZeroFieldsOfSarp3 : Prop :=
  ∀ (s : State) (k : Lane), s.regs.result = .syncOk → s.regs.dialect = .s3 →
    DrivesLane (exec (.w0S3Type k) s) s k { s.laneRec k with csType := some ((wordNat s.regs k 0).testBit 8) } ∧
    DrivesLane (exec (.w0S3Serial k) s) s k
      { s.laneRec k with
        serial := some
          { serial    := BitVec.ofNat 3 (wordNat s.regs k 0 / 512 % 8)
            serialDdb := BitVec.ofNat 10
              ([323, 348, 375, 411, 452, 501, 555, 621].getD (wordNat s.regs k 0 / 512 % 8) 0) } }

/-- Under COSPAS-SARP-2 word0 and the timecode are not decoded, and that is reported: every field absent, the support
flags 0, `unsupported` 1 (43_message_fields R200, R204). -/
def Obligations.CospasReportsUnsupported : Prop :=
  ∀ (s : State) (k : Lane), s.regs.result = .syncOk → s.regs.dialect = .c2 →
    DrivesLane (exec (.w0C2 k) s) s k
      { s.laneRec k with
        w0Supported := false, unsupported := true, level := none, rt := none, latest := none, dru := none,
        pseudo := none, csType := none, serial := none } ∧
    DrivesLane (exec (.tcC2 k) s) s k
      { s.laneRec k with tcSupported := false, unsupported := true, timecode := none }

/-- TC.SARSAT: the timecode is word1 div 2, the parity bit word1 mod 2, and the parity is valid exactly when word1 has
an even number of ones (43_message_fields R202, R205). -/
def Obligations.TimecodeAndItsParity : Prop :=
  ∀ (s : State) (k : Lane), s.regs.result = .syncOk → s.regs.dialect ≠ .c2 →
    DrivesLane (exec (.tcSarsat k) s) s k
      { s.laneRec k with
        tcSupported := true
        timecode    := some
          { timecode    := BitVec.ofNat 23 (wordNat s.regs k 1 / 2)
            parityBit   := wordNat s.regs k 1 % 2 == 1
            parityValid := onesNat (wordNat s.regs k 1) 24 % 2 == 0 } }

/-- The six payload extractions: the prefix bit, then the message bits of the dialect's range, left-aligned
(43_message_fields R207 to R212). -/
def Obligations.PayloadIsPrefixAndRange : Prop :=
  ∀ (s : State) (k : Lane),
    (ShortValid s.regs k → ∃ P, PayloadBitsOf s.regs k false 88 P ∧
      (s.regs.dialect = .s2 → DrivesLane (exec (.payShortS2 k) s) s k
        { s.laneRec k with payload := some { len := 88#7, bits := P } }) ∧
      (s.regs.dialect = .s3 → DrivesLane (exec (.payShortS3 k) s) s k
        { s.laneRec k with payload := some { len := 88#7, bits := P } }) ∧
      (s.regs.dialect = .c2 → DrivesLane (exec (.payShortC2 k) s) s k
        { s.laneRec k with payload := some { len := 88#7, bits := P } })) ∧
    (LongValid s.regs k → ∃ P, PayloadBitsOf s.regs k true 120 P ∧
      (s.regs.dialect = .s2 → DrivesLane (exec (.payLongS2 k) s) s k
        { s.laneRec k with payload := some { len := 120#7, bits := P } }) ∧
      (s.regs.dialect = .s3 → DrivesLane (exec (.payLongS3 k) s) s k
        { s.laneRec k with payload := some { len := 120#7, bits := P } }) ∧
      (s.regs.dialect = .c2 → DrivesLane (exec (.payLongC2 k) s) s k
        { s.laneRec k with payload := some { len := 120#7, bits := P } }))

/-- DOP.SHORT and DOP.LONG: the Doppler outputs of word6 of a SHORT and word7 of a LONG message, under every dialect
(43_message_fields R213, R214, R215, R217). -/
def Obligations.DopplerReadsWordSixOrSeven : Prop :=
  ∀ (s : State) (k : Lane),
    (ShortValid s.regs k → DrivesLane (exec (.dopShort k) s) s k
      { s.laneRec k with doppler := some (dopplerRec (wordNat s.regs k 6)) }) ∧
    (LongValid s.regs k → DrivesLane (exec (.dopLong k) s) s k
      { s.laneRec k with doppler := some (dopplerRec (wordNat s.regs k 7)) })

/-- The Doppler value of any word is its first 23 bits in two's complement, whichever way it is computed, and the
frequency is exact and never wraps (43_message_fields R216, R218). -/
def Obligations.DopplerValueAndFrequencyAreExact : Prop :=
  ∀ D : Word24,
    (dopplerOf D).doppler = D.extractLsb' 1 23 ∧
    (dopplerOf D).doppler.toInt = dopplerInt D.toNat ∧
    dopplerValue D = dopplerInt D.toNat ∧
    ((dopplerOf D).absFreqMhz.toNat : Int) = 406050000000 + 15 * (dopplerOf D).doppler.toInt ∧
    405987085440 ≤ (dopplerOf D).absFreqMhz.toNat ∧ (dopplerOf D).absFreqMhz.toNat ≤ 406112914545

/-! ## Beacon operations -/

/-- Which payload a lane has: of a SHORT message 88 bits, of a LONG one 120, prefix first, and none unless the frame is
valid and the message format-valid (43_message_fields R206, 20_memory R64). -/
def Obligations.PayloadOfALane : Prop :=
  ∀ (r : Regs) (k : Lane),
    (ShortValid r k → ∃ P, r.payload k = some (.len88, P) ∧ PayloadBitsOf r k false 88 P) ∧
    (LongValid r k → ∃ P, r.payload k = some (.len120, P) ∧ PayloadBitsOf r k true 120 P) ∧
    (¬ ShortValid r k → ¬ LongValid r k → r.payload k = none)

/-- BCN.HDR, BCN.COUNTRY and BCN.BCH1, for both lengths and whatever the protocol; a country code without an entry is
an explicit unknown (44_beacon_payload R231, R232, R233). -/
def Obligations.HeaderCountryAndCheckField : Prop :=
  ∀ (s : State) (k : Lane) (p : PayloadLen × PayloadBits), s.regs.payload k = some p →
    DrivesBeacon (exec (.bcnHdr k) s) s k
      { s.bcnRec k p with formatFlag := p.2.getMsbD 0, protocolFlag := beaconNat s.regs k 1 1 == 1 } ∧
    DrivesBeacon (exec (.bcnCountry k) s) s k
      { s.bcnRec k p with
        countryCode  := BitVec.ofNat 10 (beaconNat s.regs k 2 10)
        countryKnown := (Config.countryRom (BitVec.ofNat 10 (beaconNat s.regs k 2 10))).isSome
        countryEntry := Config.countryRom (BitVec.ofNat 10 (beaconNat s.regs k 2 10)) } ∧
    DrivesBeacon (exec (.bcnBch1 k) s) s k
      { s.bcnRec k p with bch1 := BitVec.ofNat 21 (beaconNat s.regs k 61 21) }

/-- BCN.BCH2 and BCN.POS of a 120-bit payload: the second check field and the nine position outputs, bit 95 read twice,
minutes four times their count (44_beacon_payload R234, R247 to R254). -/
def Obligations.LongPayloadHasCheckFieldAndPosition : Prop :=
  ∀ (s : State) (k : Lane) (P : PayloadBits), s.regs.payload k = some (.len120, P) →
    DrivesBeacon (exec (.bcnBch2 k) s) s k
      { s.bcnRec k (.len120, P) with bch2 := some (BitVec.ofNat 12 (beaconNat s.regs k 107 12)) } ∧
    DrivesBeacon (exec (.bcnPos k) s) s k
      { s.bcnRec k (.len120, P) with
        pos := some
          { source  := beaconNat s.regs k 82 1 == 1
            latFlag := beaconNat s.regs k 83 1 == 1
            latDeg  := BitVec.ofNat 7 (beaconNat s.regs k 84 7)
            latMin4 := BitVec.ofNat 4 (beaconNat s.regs k 91 4)
            latMin  := BitVec.ofNat 6 (4 * beaconNat s.regs k 91 4)
            lonFlag := beaconNat s.regs k 95 1 == 1
            lonDeg  := BitVec.ofNat 8 (beaconNat s.regs k 95 8)
            lonMin4 := BitVec.ofNat 4 (beaconNat s.regs k 103 4)
            lonMin  := BitVec.ofNat 6 (4 * beaconNat s.regs k 103 4) } }

/-- Protocols 0 to 3: number, kind and identification, zero-extended to 46 bits, no call sign
(44_beacon_payload R237 to R241). -/
def Obligations.IdentifiedProtocols : Prop :=
  ∀ (s : State) (k : Lane) (p : PayloadLen × PayloadBits), s.regs.payload k = some p → beaconNat s.regs k 1 1 = 1 →
    (beaconNat s.regs k 11 3 = 0 → DrivesBeacon (exec (.protoUser0 k) s) s k
      { s.bcnRec k p with
        user := true, protocolNum := some 0#3, idKind := 1#3,
        idValue := some (BitVec.ofNat 46 (beaconNat s.regs k 15 46)), callsign := none }) ∧
    (beaconNat s.regs k 11 3 = 1 → DrivesBeacon (exec (.protoUser1 k) s) s k
      { s.bcnRec k p with
        user := true, protocolNum := some 1#3, idKind := 2#3,
        idValue := some (BitVec.ofNat 46 (beaconNat s.regs k 15 42)), callsign := none }) ∧
    (beaconNat s.regs k 11 3 = 2 → DrivesBeacon (exec (.protoUser2 k) s) s k
      { s.bcnRec k p with
        user := true, protocolNum := some 2#3, idKind := 3#3,
        idValue := some (BitVec.ofNat 46 (beaconNat s.regs k 15 42)), callsign := none }) ∧
    (beaconNat s.regs k 11 3 = 3 → DrivesBeacon (exec (.protoUser3 k) s) s k
      { s.bcnRec k p with
        user := true, protocolNum := some 3#3, idKind := 4#3,
        idValue := some (BitVec.ofNat 46 (beaconNat s.regs k 19 30)), callsign := none })

/-- STANDARD_NATIONAL and the protocols 4, 5 and 7 that are not decoded: no identification and no call sign; under USER
the number still shows (44_beacon_payload R236, R242, R243, R245). -/
def Obligations.ProtocolsWithoutIdentification : Prop :=
  ∀ (s : State) (k : Lane) (p : PayloadLen × PayloadBits), s.regs.payload k = some p →
    (beaconNat s.regs k 1 1 = 0 → DrivesBeacon (exec (.protoStdnat k) s) s k
      { s.bcnRec k p with user := false, protocolNum := none, idKind := 0#3, idValue := none, callsign := none }) ∧
    (beaconNat s.regs k 1 1 = 1 → beaconNat s.regs k 11 3 = 4 → DrivesBeacon (exec (.protoUser4 k) s) s k
      { s.bcnRec k p with user := true, protocolNum := some 4#3, idKind := 0#3, idValue := none, callsign := none }) ∧
    (beaconNat s.regs k 1 1 = 1 → beaconNat s.regs k 11 3 = 5 → DrivesBeacon (exec (.protoUser5 k) s) s k
      { s.bcnRec k p with user := true, protocolNum := some 5#3, idKind := 0#3, idValue := none, callsign := none }) ∧
    (beaconNat s.regs k 1 1 = 1 → beaconNat s.regs k 11 3 = 7 → DrivesBeacon (exec (.protoUser7 k) s) s k
      { s.bcnRec k p with user := true, protocolNum := some 7#3, idKind := 0#3, idValue := none, callsign := none })

/-- Protocol 6: the four six-bit groups through BAUDOT_ROM, no identification; a group without an entry gives "*" with
its miss flag, the two only together, and 56 is "A" (44_beacon_payload R244, R246). That no entry of the table is "*"
is read from R246 (assumption 7, DEDUCED). -/
def Obligations.RadioCallSignOfProtocolSix : Prop :=
  (∀ (s : State) (k : Lane) (p : PayloadLen × PayloadBits), s.regs.payload k = some p →
    beaconNat s.regs k 1 1 = 1 → beaconNat s.regs k 11 3 = 6 →
    DrivesBeacon (exec (.protoUser6 k) s) s k
      { s.bcnRec k p with
        user := true, protocolNum := some 6#3, idKind := 0#3, idValue := none,
        callsign := some
          { c0 := baudotChar (BitVec.ofNat 6 (beaconNat s.regs k 15 6))
            c1 := baudotChar (BitVec.ofNat 6 (beaconNat s.regs k 21 6))
            c2 := baudotChar (BitVec.ofNat 6 (beaconNat s.regs k 27 6))
            c3 := baudotChar (BitVec.ofNat 6 (beaconNat s.regs k 33 6)) } }) ∧
  baudotChar 56#6 = { code := 0x41#8, miss := false } ∧
  ∀ g, ((baudotChar g).miss = true ↔ (baudotChar g).code = 0x2A#8) ∧
    ((baudotChar g).miss = true ↔ g ≠ 56#6 ∧ Config.baudotOpen g = none)

/-! ## The output record as a whole -/

/-- Which optional word0 and timecode outputs a lane has, and its support flags, follow the dialect alone
(10_state R53; 43_message_fields R193 to R200, R202, R204, R219). -/
def Obligations.OptionalFieldsFollowTheDialect : Prop :=
  ∀ s : State, Goes (step s) fun t => ∀ k L, t.out.lane k = some L →
    L.dialect.toNat = dialectNat t.regs.dialect ∧
    (L.level.isSome = true ↔ t.regs.dialect ≠ .c2) ∧ (L.rt.isSome = true ↔ t.regs.dialect ≠ .c2) ∧
    (L.latest.isSome = true ↔ t.regs.dialect ≠ .c2) ∧ (L.timecode.isSome = true ↔ t.regs.dialect ≠ .c2) ∧
    (L.dru.isSome = true ↔ t.regs.dialect = .s2) ∧ (L.pseudo.isSome = true ↔ t.regs.dialect = .s2) ∧
    (L.csType.isSome = true ↔ t.regs.dialect = .s3) ∧ (L.serial.isSome = true ↔ t.regs.dialect = .s3) ∧
    (L.w0Supported = true ↔ t.regs.dialect ≠ .c2) ∧ (L.tcSupported = true ↔ t.regs.dialect ≠ .c2) ∧
    (L.unsupported = true ↔ t.regs.dialect = .c2)

/-- A lane has a payload, Doppler outputs and a beacon record exactly when its message is format-valid; the beacon
record has the lane's payload, length and timestamp, and its `format_flag` is its type and its message's class
(44_beacon_payload R230, R255, R256, R259). -/
def Obligations.BeaconRecordMatchesItsMessage : Prop :=
  ∀ s : State, Goes (step s) fun t => ∀ k L, t.out.lane k = some L →
    L.ts = t.regs.tstamp ∧
    L.payload.isSome = L.fmtValid ∧ L.doppler.isSome = L.fmtValid ∧ L.bcn.isSome = L.fmtValid ∧
    ∀ B, L.bcn = some B →
      B.ts = t.regs.tstamp ∧ L.payload = some { len := B.len, bits := B.raw } ∧
      B.formatFlag = B.long ∧ B.len = (if B.long then 120#7 else 88#7) ∧ L.format = (if B.long then 1#2 else 0#2)

/-- Lane k's record depends on the 24 bytes of its message, the dialect, TSTAMP and whether the frame is valid, and on
nothing else (42_frame_sync R175). -/
def Obligations.LanesReadOnlyTheirOwnMessage : Prop :=
  ∀ (s u : State) (k : Lane), Goes (step s) fun t => Goes (step u) fun v =>
    (t.regs.result = .syncOk ↔ v.regs.result = .syncOk) → t.regs.dialect = v.regs.dialect → t.regs.tstamp = v.regs.tstamp →
      (∀ i, i < 24 → t.regs.frame.get (24 * laneIndex k + i) = v.regs.frame.get (24 * laneIndex k + i)) →
        t.out.lane k = v.out.lane k

/-- Absent fields read zero at the ports after every step: the whole lane when the frame is not valid; under each dialect
the word0 and timecode fields it does not have; payload, Doppler outputs and the whole beacon record when the message is
not format-valid; in a beacon record the country entry of an unknown code, the second check field and the position of
88 bits, the number of STANDARD_NATIONAL, the identification when its kind is 0, the call sign of any protocol but 6.
An absent lane or beacon record drives every present bit and every value to zero
(10_state R53, R54, R55; 00_scope R16; 70_reset_and_hazards R315). -/
def Obligations.AbsentFieldsReadZero : Prop :=
  lanePorts none = absentLanePorts ∧ bcnPorts none = absentBcnPorts ∧
  ∀ s : State, Goes (step s) fun t => ∀ k,
    (t.regs.result ≠ .syncOk → lanePorts (t.out.lane k) = absentLanePorts) ∧
    (t.regs.dialect = .c2 →
      ReadsZero (lanePorts (t.out.lane k)).level ∧ ReadsZero (lanePorts (t.out.lane k)).levelCdbm ∧
      ReadsZero (lanePorts (t.out.lane k)).rt ∧ ReadsZero (lanePorts (t.out.lane k)).latest ∧
      ReadsZero (lanePorts (t.out.lane k)).timecode ∧ ReadsZero (lanePorts (t.out.lane k)).tcParityBit ∧
      ReadsZero (lanePorts (t.out.lane k)).tcParityValid ∧
      (t.regs.result = .syncOk →
        (lanePorts (t.out.lane k)).present = true ∧ (lanePorts (t.out.lane k)).unsupported = true)) ∧
    (t.regs.dialect ≠ .s2 →
      ReadsZero (lanePorts (t.out.lane k)).dru ∧ ReadsZero (lanePorts (t.out.lane k)).pseudo) ∧
    (t.regs.dialect ≠ .s3 →
      ReadsZero (lanePorts (t.out.lane k)).csType ∧ ReadsZero (lanePorts (t.out.lane k)).serial ∧
      ReadsZero (lanePorts (t.out.lane k)).serialDdb) ∧
    (¬ ShortValid t.regs k → ¬ LongValid t.regs k →
      ReadsZero (lanePorts (t.out.lane k)).payloadLen ∧ ReadsZero (lanePorts (t.out.lane k)).payload ∧
      ReadsZero (lanePorts (t.out.lane k)).doppler ∧ ReadsZero (lanePorts (t.out.lane k)).dopParityBit ∧
      ReadsZero (lanePorts (t.out.lane k)).dopParityValid ∧ ReadsZero (lanePorts (t.out.lane k)).absFreqMhz ∧
      (lanePorts (t.out.lane k)).bcn = absentBcnPorts) ∧
    ((lanePorts (t.out.lane k)).bcn.countryKnown = false → ReadsZero (lanePorts (t.out.lane k)).bcn.countryEntry) ∧
    (¬ LongValid t.regs k →
      ReadsZero (lanePorts (t.out.lane k)).bcn.bch2 ∧ ReadsZero (lanePorts (t.out.lane k)).bcn.posSource ∧
      ReadsZero (lanePorts (t.out.lane k)).bcn.posLatFlag ∧ ReadsZero (lanePorts (t.out.lane k)).bcn.posLatDeg ∧
      ReadsZero (lanePorts (t.out.lane k)).bcn.posLatMin4 ∧ ReadsZero (lanePorts (t.out.lane k)).bcn.posLatMin ∧
      ReadsZero (lanePorts (t.out.lane k)).bcn.posLonFlag ∧ ReadsZero (lanePorts (t.out.lane k)).bcn.posLonDeg ∧
      ReadsZero (lanePorts (t.out.lane k)).bcn.posLonMin4 ∧ ReadsZero (lanePorts (t.out.lane k)).bcn.posLonMin) ∧
    ((lanePorts (t.out.lane k)).bcn.user = false → ReadsZero (lanePorts (t.out.lane k)).bcn.protocolNum) ∧
    ((lanePorts (t.out.lane k)).bcn.idKind = 0#3 → ReadsZero (lanePorts (t.out.lane k)).bcn.idValue) ∧
    ((lanePorts (t.out.lane k)).bcn.user = false ∨ (lanePorts (t.out.lane k)).bcn.protocolNum.value ≠ 6#3 →
      ReadsZero (lanePorts (t.out.lane k)).bcn.callsign ∧ ReadsZero (lanePorts (t.out.lane k)).bcn.callsignMiss)
end

