-- ==== Sys2Proof/Laws/Memory.lean ====
section
/-! SUPPORT. The frame memory and the working buffer: read after write, every other place untouched, the canonical form
kept, and what the 600-bit view of a committed frame is. -/
namespace Sys2Proof.Machine

@[simp] theorem Memory.get_nil (i : Nat) : Memory.get [] i = 0#8 := rfl

@[simp] theorem Memory.wfFrom_nil (lo : Nat) : Memory.wfFrom lo [] = true := rfl

theorem Memory.wfFrom_cons {lo a : Nat} {v : Byte} {m : Memory} :
    Memory.wfFrom lo ((a, v) :: m) = true ↔ lo ≤ a ∧ a < 75 ∧ v ≠ 0#8 ∧ Memory.wfFrom (a + 1) m = true := by
  simp [Memory.wfFrom, Memory.blank, and_assoc, Config.N_BYTES]

theorem Memory.wfFrom_mono {lo lo' : Nat} {m : Memory} (h : lo' ≤ lo) (hm : Memory.wfFrom lo m = true) :
    Memory.wfFrom lo' m = true := by
  cases m with
  | nil => rfl
  | cons c m =>
    obtain ⟨a, v⟩ := c
    rw [Memory.wfFrom_cons] at hm ⊢
    exact ⟨h.trans hm.1, hm.2⟩

/-- Below the first offset of a canonical list every byte is blank. -/
theorem Memory.get_of_lt {lo i : Nat} {m : Memory} (hm : Memory.wfFrom lo m = true) (h : i < lo) : m.get i = 0#8 := by
  induction m generalizing lo with
  | nil => rfl
  | cons c m ih =>
    obtain ⟨a, v⟩ := c
    rw [Memory.wfFrom_cons] at hm
    have hne : a ≠ i := by omega
    simp only [Memory.get, hne, if_false]
    exact ih hm.2.2.2 (by omega)

/-- Reading the byte just written gives it. -/
theorem Memory.get_set_same {lo i : Nat} {m : Memory} (v : Byte) (hm : Memory.wfFrom lo m = true) :
    (m.set i v).get i = v := by
  induction m generalizing lo with
  | nil => by_cases hv : v = 0#8 <;> simp [Memory.set, Memory.get, Memory.blank, hv]
  | cons c m ih =>
    obtain ⟨a, b⟩ := c
    rw [Memory.wfFrom_cons] at hm
    obtain ⟨-, -, -, hm⟩ := hm
    rcases Nat.lt_trichotomy i a with h | h | h
    · have hr := Memory.get_of_lt (i := i) hm (by omega)
      by_cases hv : v = 0#8 <;> simp [Memory.set, Memory.get, Memory.blank, h, hv, (show a ≠ i by omega), hr]
    · subst h
      have hr := Memory.get_of_lt (i := i) hm (by omega)
      by_cases hv : v = 0#8 <;> simp [Memory.set, Memory.get, Memory.blank, hv, hr]
    · simp [Memory.set, Memory.get, (show ¬ i < a by omega), (show i ≠ a by omega), (show a ≠ i by omega), ih hm]

/-- A write leaves every other byte alone. -/
theorem Memory.get_set_other {i j : Nat} (m : Memory) (v : Byte) (h : j ≠ i) : (m.set i v).get j = m.get j := by
  induction m with
  | nil => by_cases hv : v = 0#8 <;> simp [Memory.set, Memory.get, Memory.blank, hv, h.symm]
  | cons c m ih =>
    obtain ⟨a, b⟩ := c
    rcases Nat.lt_trichotomy i a with hl | hl | hl
    · by_cases hv : v = 0#8 <;> simp [Memory.set, Memory.get, Memory.blank, hl, hv, h.symm]
    · subst hl
      by_cases hv : v = 0#8 <;> simp [Memory.set, Memory.get, Memory.blank, hv, h.symm]
    · simp [Memory.set, Memory.get, (show ¬ i < a by omega), (show i ≠ a by omega), ih]

/-- A write below 75 keeps the canonical form. -/
theorem Memory.wfFrom_set {lo i : Nat} {m : Memory} (v : Byte) (hm : Memory.wfFrom lo m = true) (hlo : lo ≤ i)
    (hi : i < 75) : Memory.wfFrom lo (m.set i v) = true := by
  induction m generalizing lo with
  | nil => by_cases hv : v = 0#8 <;> simp [Memory.set, Memory.blank, hv, Memory.wfFrom_cons, hlo, hi]
  | cons c m ih =>
    obtain ⟨a, b⟩ := c
    have hm' := hm
    rw [Memory.wfFrom_cons] at hm
    obtain ⟨h1, h2, h3, h4⟩ := hm
    rcases Nat.lt_trichotomy i a with h | h | h
    · by_cases hv : v = 0#8
      · simpa [Memory.set, Memory.blank, h, hv] using hm'
      · simp [Memory.set, Memory.blank, h, hv, Memory.wfFrom_cons, hlo, hi, h2, h3, h4, (show i + 1 ≤ a by omega)]
    · subst h
      by_cases hv : v = 0#8
      · simpa [Memory.set, Memory.blank, hv] using Memory.wfFrom_mono (show lo ≤ i + 1 by omega) h4
      · simp [Memory.set, Memory.blank, hv, Memory.wfFrom_cons, hlo, hi, h4]
    · simp only [Memory.set, (show ¬ i < a by omega), (show i ≠ a by omega), if_false]
      rw [Memory.wfFrom_cons]
      exact ⟨h1, h2, h3, ih h4 (by omega)⟩

/-- Every memory operation keeps the canonical form: writing one byte. -/
theorem Memory.wf_set {i : Nat} {m : Memory} (v : Byte) (hm : m.wf = true) (hi : i < 75) : (m.set i v).wf = true :=
  Memory.wfFrom_set v hm (Nat.zero_le i) hi

theorem Memory.wf_nil : Memory.wf [] = true := rfl

/-- Writing the bytes of `f` at a list of offsets keeps the canonical form and changes those bytes only. -/
theorem Memory.setAll_spec (f : FrameBits) (l : List Nat) (m : Memory) (hm : m.wf = true) (hl : ∀ i ∈ l, i < 75) :
    (l.foldl (fun m i => m.set i (frameByte f i)) m).wf = true ∧
      ∀ j, Memory.get (l.foldl (fun m i => m.set i (frameByte f i)) m) j = if j ∈ l then frameByte f j else m.get j := by
  induction l generalizing m with
  | nil => simp [hm]
  | cons i l ih =>
    obtain ⟨h1, h2⟩ := ih (m.set i (frameByte f i)) (Memory.wf_set _ hm (hl i (by simp))) fun j hj => hl j (by simp [hj])
    refine ⟨h1, fun j => ?_⟩
    rw [List.foldl_cons, h2 j]
    by_cases hj : j ∈ l
    · simp [hj]
    · by_cases hji : j = i
      · subst hji
        simpa [hj] using Memory.get_set_same (frameByte f j) hm
      · simp [hj, hji, Memory.get_set_other m _ hji]

/-- The committed memory is canonical. -/
theorem Memory.wf_ofBits (f : FrameBits) : (Memory.ofBits f).wf = true :=
  (Memory.setAll_spec f (List.range 75) [] rfl fun _ h => List.mem_range.mp h).1

/-- The bytes of the committed memory are the bytes of the bits committed. -/
theorem Memory.get_ofBits (f : FrameBits) {i : Nat} (hi : i < 75) : (Memory.ofBits f).get i = frameByte f i := by
  have h := (Memory.setAll_spec f (List.range 75) [] rfl fun _ h => List.mem_range.mp h).2 i
  rwa [if_pos (List.mem_range.mpr hi)] at h

theorem bits_toNat {n : Nat} (s : BitVec n) (a w : Nat) : (bits s a w).toNat = s.toNat / 2 ^ (n - a - w) % 2 ^ w := by
  simp [bits, Nat.shiftRight_eq_div_pow]

theorem Memory.prefixNat_succ (m : Memory) (n : Nat) : m.prefixNat (n + 1) = m.prefixNat n * 256 + (m.get n).toNat := by
  simp [Memory.prefixNat, List.range_succ]

theorem Memory.prefixNat_ofBits (f : FrameBits) {n : Nat} (hn : n ≤ 75) :
    (Memory.ofBits f).prefixNat n = f.toNat / 2 ^ (600 - 8 * n) := by
  induction n with
  | zero => simpa [Memory.prefixNat] using (Nat.div_eq_of_lt f.isLt).symm
  | succ n ih =>
    rw [Memory.prefixNat_succ, ih (by omega), Memory.get_ofBits f (by omega), frameByte, bits_toNat]
    have he : 600 - 8 * n = 600 - 8 * (n + 1) + 8 := by omega
    have he' : 600 - 8 * n - 8 = 600 - 8 * (n + 1) := by omega
    rw [he', he, Nat.pow_add, ← Nat.div_div_eq_div_mul]
    omega

/-- The 600-bit view of the committed memory is the bits committed. -/
@[simp] theorem Memory.fb_ofBits (f : FrameBits) : (Memory.ofBits f).fb = f := by
  apply BitVec.eq_of_toNat_eq
  rw [Memory.fb, BitVec.toNat_ofNat, Memory.prefixNat_ofBits f (Nat.le_refl 75)]
  exact (congrArg (· % 2 ^ 600) (Nat.div_one f.toNat)).trans (Nat.mod_eq_of_lt f.isLt)

theorem Memory.prefixNat_nil (n : Nat) : Memory.prefixNat [] n = 0 := by
  induction n with
  | zero => rfl
  | succ n ih => simp [Memory.prefixNat_succ, ih]

/-- A cleared frame is 600 zero bits. -/
@[simp] theorem Memory.fb_nil : Memory.fb [] = 0#600 := by simp [Memory.fb, Memory.prefixNat_nil]

/-- A write into the working buffer changes the one bit it names. -/
theorem memWrite_getMsbD (w : FrameBits) {j : Nat} (v : Bool) (hj : j < 600) {q : Nat} (hq : q < 600) :
    (memWrite w j v).getMsbD q = if q = j then v else w.getMsbD q := by
  have h1 : (1#600 <<< (599 - j)).getMsbD q = decide (q = j) := by
    simp only [BitVec.getMsbD_shiftLeft, BitVec.getMsbD_one]
    by_cases h : q = j
    · subst h
      simp
      omega
    · simp only [h, decide_false]
      have : ¬ (q + (599 - j) = 600 - 1) := by omega
      simp [this]
  unfold memWrite
  cases v <;> by_cases h : q = j <;> simp_all [Config.N_BITS]

/-- Writing at an index that is no bit of the buffer writes nothing. -/
theorem memWrite_out_of_range (w : FrameBits) {j : Nat} (v : Bool) (hj : ¬ j < 600) : memWrite w j v = w := by
  simp [memWrite, Config.N_BITS, hj]

end Sys2Proof.Machine
end

