-- ==== Sys2Proof/Laws/Frame.lean ====
section
/-! SUPPORT. The frame's bits, fields and words by address: that the 600-bit view the operations read and the bytes that
claims read are the same. -/
namespace Sys2Proof.Machine

/-- Byte i of the number that the first n bytes spell. -/
theorem Memory.prefixNat_byte (m : Memory) {n i : Nat} (h : i < n) :
    m.prefixNat n / 256 ^ (n - 1 - i) % 256 = (m.get i).toNat := by
  induction n with
  | zero => omega
  | succ n ih =>
    have hb := (m.get n).isLt
    rw [Memory.prefixNat_succ]
    by_cases hi : i = n
    · subst hi
      simp only [Nat.add_sub_cancel, Nat.sub_self, pow_zero, Nat.div_one]
      omega
    · have he : n + 1 - 1 - i = (n - 1 - i) + 1 := by omega
      have hd : (m.prefixNat n * 256 + (m.get n).toNat) / 256 = m.prefixNat n := by omega
      rw [he, pow_succ', ← Nat.div_div_eq_div_mul, hd]
      exact ih (by omega)

/-- Frame bit a is bit 7 - a % 8 of byte a / 8 (00_scope R14). -/
theorem Memory.fb_getMsbD (m : Memory) {a : Nat} (h : a < 600) :
    m.fb.getMsbD a = (m.get (a / 8)).getLsbD (7 - a % 8) := by
  have hb := m.prefixNat_byte (n := 75) (i := a / 8) (by omega)
  have hs : 600 - 1 - a = 8 * (75 - 1 - a / 8) + (7 - a % 8) := by omega
  have hl : 600 - 1 - a < 600 := by omega
  rw [BitVec.getMsbD, Memory.fb, BitVec.getLsbD_ofNat]
  simp only [h, hl, decide_true, Bool.true_and]
  rw [show Config.N_BYTES = 75 from rfl, hs, Nat.add_comm, Nat.testBit_add, show (7 - a % 8) = (7 - a % 8) from rfl,
    BitVec.getLsbD, ← hb, show (256 : Nat) = 2 ^ 8 from rfl, ← pow_mul, Nat.testBit_mod_two_pow]
  simp
  omega

/-- A slice bit by bit: `s[a : a+w)` has bit i of `s[a+i]`. -/
theorem bits_getMsbD {n : Nat} (s : BitVec n) {a w i : Nat} (hi : i < w) (h : a + w ≤ n) :
    (bits s a w).getMsbD i = s.getMsbD (a + i) := by
  have h1 : n - a - w + (w - 1 - i) = n - 1 - (a + i) := by omega
  have h2 : a + i < n := by omega
  have h3 : w - 1 - i < w := by omega
  simp [bits, BitVec.getMsbD, hi, h1, h2, h3]

/-- `uint` of a bit sequence, most significant bit first (00_scope R11). -/
theorem toNat_eq_foldl {w : Nat} (s : BitVec w) :
    s.toNat = (List.range w).foldl (fun acc i => 2 * acc + (s.getMsbD i).toNat) 0 := by
  have key : ∀ n, n ≤ w → (List.range n).foldl (fun acc i => 2 * acc + (s.getMsbD i).toNat) 0 = s.toNat / 2 ^ (w - n) := by
    intro n
    induction n with
    | zero => intro _; simpa using (Nat.div_eq_of_lt s.isLt).symm
    | succ n ih =>
      intro hn
      rw [List.range_succ, List.foldl_append, ih (by omega)]
      have hw : w - n = (w - (n + 1)) + 1 := by omega
      have hb : s.getMsbD n = s.toNat.testBit (w - (n + 1)) := by
        have h1 : w - 1 - n = w - (n + 1) := by omega
        simp [BitVec.getMsbD, BitVec.getLsbD, h1]
        omega
      simp only [List.foldl_cons, List.foldl_nil, hb, hw, pow_succ, ← Nat.div_div_eq_div_mul, Nat.toNat_testBit]
      omega
  simpa using (key w le_rfl).symm

/-- `MemRead` as a number is the field read from the bytes. -/
theorem memRead_toNat (r : Regs) {a w : Nat} (h : a + w ≤ 600) : (memRead r.frame a w).toNat = memNat r a w := by
  rw [toNat_eq_foldl, memNat]
  refine List.foldl_ext _ _ _ fun acc i hi => ?_
  have hi := List.mem_range.mp hi
  rw [memRead, bits_getMsbD _ hi h, Memory.fb_getMsbD _ (by omega), frameBit]

/-- A slice of a slice. -/
theorem bits_bits {n : Nat} (s : BitVec n) {a w b v : Nat} (h : b + v ≤ w) (h' : a + w ≤ n) :
    bits (bits s a w) b v = bits s (a + b) v := by
  apply BitVec.eq_of_getMsbD_eq
  intro i hi
  rw [bits_getMsbD _ hi (by omega), bits_getMsbD _ (by omega) h', bits_getMsbD _ hi (by omega)]
  congr 1
  omega

theorem Lane.base_eq (k : Lane) : k.base = 192 * laneIndex k := by cases k <;> rfl

theorem laneIndex_le (k : Lane) : laneIndex k ≤ 2 := by cases k <;> simp [laneIndex]

/-- Message bit i of lane k is frame bit 192k + i (20_memory R62). -/
theorem Regs.msg_getMsbD (r : Regs) (k : Lane) {i : Nat} (hi : i < 192) :
    (r.msg k).getMsbD i = frameBit r (192 * laneIndex k + i) := by
  have hk := laneIndex_le k
  rw [Regs.msg, memRead, bits_getMsbD _ hi (by rw [Lane.base_eq]; omega), Lane.base_eq,
    Memory.fb_getMsbD _ (by omega), frameBit]

/-- A field of a message as a number. -/
theorem Regs.msg_bits_toNat (r : Regs) (k : Lane) {a w : Nat} (h : a + w ≤ 192) :
    (bits (r.msg k) a w).toNat = memNat r (192 * laneIndex k + a) w := by
  have hk := laneIndex_le k
  rw [Regs.msg, memRead, bits_bits _ h (by rw [Lane.base_eq]; omega), Lane.base_eq]
  exact memRead_toNat r (by omega)

/-- Three whole bytes as one number. -/
theorem memNat_word (r : Regs) (i : Nat) :
    memNat r (8 * i) 24 = (r.frame.get i).toNat * 65536 + (r.frame.get (i + 1)).toNat * 256 + (r.frame.get (i + 2)).toNat := by
  have hq : ∀ j, j < 8 → (8 * i + j) / 8 = i ∧ (8 * i + j) % 8 = j := by omega
  have hq1 : ∀ j, 8 ≤ j → j < 16 → (8 * i + j) / 8 = i + 1 ∧ (8 * i + j) % 8 = j - 8 := by omega
  have hq2 : ∀ j, 16 ≤ j → j < 24 → (8 * i + j) / 8 = i + 2 ∧ (8 * i + j) % 8 = j - 16 := by omega
  have hb : ∀ b : BitVec 8, b.toNat = (b.getLsbD 7).toNat * 128 + (b.getLsbD 6).toNat * 64 + (b.getLsbD 5).toNat * 32 +
      (b.getLsbD 4).toNat * 16 + (b.getLsbD 3).toNat * 8 + (b.getLsbD 2).toNat * 4 + (b.getLsbD 1).toNat * 2 +
      (b.getLsbD 0).toNat := by decide
  rw [hb (r.frame.get i), hb (r.frame.get (i + 1)), hb (r.frame.get (i + 2))]
  simp only [memNat, show List.range 24 = [0, 1, 2, 3, 4, 5, 6, 7, 8, 9, 10, 11, 12, 13, 14, 15, 16, 17, 18, 19, 20, 21, 22, 23]
    from rfl, List.foldl_cons, List.foldl_nil, frameBit]
  simp [hq, hq1, hq2]
  omega

/-- A word of a lane as a number is the one its three bytes spell (20_memory R66). -/
theorem Regs.word_toNat (r : Regs) (k : Lane) {j : Nat} (hj : j < 8) : (r.word k j).toNat = wordNat r k j := by
  rw [Regs.word, wordOf, Regs.msg_bits_toNat r k (by omega), wordNat, ← memNat_word]
  congr 1
  omega

end Sys2Proof.Machine
end

