-- ==== Sys2Proof/Laws/State.lean ====
section
/-! SUPPORT. One lemma per field per update of the state, true by unfolding the update once, so that no later proof does. -/
namespace Sys2Proof.Machine

/-! ## Replacing the registers -/

@[simp] theorem State.withRegs_regs (s : State) (r : Regs) : (s.withRegs r).regs = r := rfl
@[simp] theorem State.withRegs_pins (s : State) (r : Regs) : (s.withRegs r).pins = s.pins := rfl
@[simp] theorem State.withRegs_script (s : State) (r : Regs) : (s.withRegs r).script = s.script := rfl
@[simp] theorem State.withRegs_out (s : State) (r : Regs) : (s.withRegs r).out = s.out := rfl
@[simp] theorem State.withRegs_withRegs (s : State) (r r' : Regs) : (s.withRegs r).withRegs r' = s.withRegs r' := rfl
@[simp] theorem State.withRegs_self (s : State) : s.withRegs s.regs = s := rfl

/-! ## Replacing a lane's record -/

@[simp] theorem State.setLane_regs (s : State) (k : Lane) (L : LaneOut) : (s.setLane k L).regs = s.regs := rfl
@[simp] theorem State.setLane_pins (s : State) (k : Lane) (L : LaneOut) : (s.setLane k L).pins = s.pins := rfl
@[simp] theorem State.setLane_script (s : State) (k : Lane) (L : LaneOut) : (s.setLane k L).script = s.script := rfl
@[simp] theorem State.setLane_out (s : State) (k : Lane) (L : LaneOut) : (s.setLane k L).out = s.out.setLane k (some L) := rfl
@[simp] theorem Output.setLane_irq (o : Output) (k : Lane) (L : Option LaneOut) : (o.setLane k L).irq = o.irq := by
  cases k <;> rfl
@[simp] theorem Output.setLane_status (o : Output) (k : Lane) (L : Option LaneOut) : (o.setLane k L).status = o.status := by
  cases k <;> rfl
@[simp] theorem Output.setLane_cfg (o : Output) (k : Lane) (L : Option LaneOut) : (o.setLane k L).cfg = o.cfg := by
  cases k <;> rfl
@[simp] theorem Output.setLane_framePresent (o : Output) (k : Lane) (L : Option LaneOut) : (o.setLane k L).framePresent = o.framePresent := by
  cases k <;> rfl
@[simp] theorem Output.setLane_frameValid (o : Output) (k : Lane) (L : Option LaneOut) : (o.setLane k L).frameValid = o.frameValid := by
  cases k <;> rfl
@[simp] theorem Output.setLane_frameTs (o : Output) (k : Lane) (L : Option LaneOut) : (o.setLane k L).frameTs = o.frameTs := by
  cases k <;> rfl
@[simp] theorem Output.setLane_frameLen (o : Output) (k : Lane) (L : Option LaneOut) : (o.setLane k L).frameLen = o.frameLen := by
  cases k <;> rfl
@[simp] theorem Output.setLane_frameDialect (o : Output) (k : Lane) (L : Option LaneOut) : (o.setLane k L).frameDialect = o.frameDialect := by
  cases k <;> rfl
@[simp] theorem Output.setLane_frameBytes (o : Output) (k : Lane) (L : Option LaneOut) : (o.setLane k L).frameBytes = o.frameBytes := by
  cases k <;> rfl
@[simp] theorem Output.setLane_nMsgs (o : Output) (k : Lane) (L : Option LaneOut) : (o.setLane k L).nMsgs = o.nMsgs := by
  cases k <;> rfl
@[simp] theorem Output.lane_setLane_same (o : Output) (k : Lane) (L : Option LaneOut) : (o.setLane k L).lane k = L := by
  cases k <;> rfl
theorem Output.lane_setLane_other (o : Output) {k j : Lane} (L : Option LaneOut) (h : j ≠ k) :
    (o.setLane k L).lane j = o.lane j := by
  cases k <;> cases j <;> first | rfl | exact absurd rfl h
@[simp] theorem Output.setLane_setLane (o : Output) (k : Lane) (L L' : Option LaneOut) :
    (o.setLane k L).setLane k L' = o.setLane k L' := by
  cases k <;> rfl
@[simp] theorem Output.setLane_self (o : Output) (k : Lane) : o.setLane k (o.lane k) = o := by
  cases k <;> rfl
theorem Output.setLane_comm (o : Output) {k j : Lane} (L L' : Option LaneOut) (h : j ≠ k) :
    (o.setLane k L).setLane j L' = (o.setLane j L').setLane k L := by
  cases k <;> cases j <;> first | rfl | exact absurd rfl h
@[simp] theorem State.laneRec_setLane_same (s : State) (k : Lane) (L : LaneOut) : (s.setLane k L).laneRec k = L := by
  cases k <;> rfl
theorem State.laneRec_setLane_other (s : State) {k j : Lane} (L : LaneOut) (h : j ≠ k) :
    (s.setLane k L).laneRec j = s.laneRec j := by
  cases k <;> cases j <;> first | rfl | exact absurd rfl h
@[simp] theorem State.setLane_setLane (s : State) (k : Lane) (L L' : LaneOut) :
    (s.setLane k L).setLane k L' = s.setLane k L' := by
  cases k <;> rfl

/-! ## Driving the frame ports -/

@[simp] theorem State.driveFrame_regs (s : State) : s.driveFrame.regs = s.regs := rfl
@[simp] theorem State.driveFrame_pins (s : State) : s.driveFrame.pins = s.pins := rfl
@[simp] theorem State.driveFrame_script (s : State) : s.driveFrame.script = s.script := rfl
@[simp] theorem State.driveFrame_out (s : State) : s.driveFrame.out = s.regs.frameOutputs := rfl
@[simp] theorem Regs.frameOutputs_lane (r : Regs) (k : Lane) : r.frameOutputs.lane k = r.openedLane k := by
  cases k <;> rfl

/-! ## The end of a cycle -/

@[simp] theorem State.advance_regs (s : State) : s.advance.regs = s.regs := by
  unfold State.advance; cases s.script <;> rfl
@[simp] theorem State.advance_out (s : State) : s.advance.out = s.out := by
  unfold State.advance; cases s.script <;> rfl
theorem State.advance_cons {s : State} {p : Pins} {ps : List Pins} (h : s.script = p :: ps) :
    s.advance.pins = p ∧ s.advance.script = ps := by
  simp [State.advance, h]
theorem State.advance_nil {s : State} (h : s.script = []) : s.advance.pins = Pins.idle ∧ s.advance.script = [] := by
  simp [State.advance, h]

/-! ## Recording an outcome -/

@[simp] theorem blockEndCommon_frame (now : Timestamp) (res : Result) (r : Regs) : (blockEndCommon now res r).frame = r.frame := rfl
@[simp] theorem blockEndCommon_wbuf (now : Timestamp) (res : Result) (r : Regs) : (blockEndCommon now res r).wbuf = r.wbuf := rfl
@[simp] theorem blockEndCommon_symcnt (now : Timestamp) (res : Result) (r : Regs) : (blockEndCommon now res r).symcnt = 0 := rfl
@[simp] theorem blockEndCommon_hold (now : Timestamp) (res : Result) (r : Regs) : (blockEndCommon now res r).hold = r.hold := rfl
@[simp] theorem blockEndCommon_invAct (now : Timestamp) (res : Result) (r : Regs) : (blockEndCommon now res r).invAct = r.invAct := rfl
@[simp] theorem blockEndCommon_violAct (now : Timestamp) (res : Result) (r : Regs) : (blockEndCommon now res r).violAct = r.violAct := rfl
@[simp] theorem blockEndCommon_dialect (now : Timestamp) (res : Result) (r : Regs) : (blockEndCommon now res r).dialect = r.dialect := rfl
@[simp] theorem blockEndCommon_inv (now : Timestamp) (res : Result) (r : Regs) : (blockEndCommon now res r).inv = r.inv := rfl
@[simp] theorem blockEndCommon_result (now : Timestamp) (res : Result) (r : Regs) : (blockEndCommon now res r).result = res := rfl
@[simp] theorem blockEndCommon_newFlag (now : Timestamp) (res : Result) (r : Regs) : (blockEndCommon now res r).newFlag = true := rfl
@[simp] theorem blockEndCommon_ovr (now : Timestamp) (res : Result) (r : Regs) : (blockEndCommon now res r).ovr = (r.ovr || r.newFlag) := rfl
@[simp] theorem blockEndCommon_cmderr (now : Timestamp) (res : Result) (r : Regs) : (blockEndCommon now res r).cmderr = r.cmderr := rfl
@[simp] theorem blockEndCommon_tstamp (now : Timestamp) (res : Result) (r : Regs) : (blockEndCommon now res r).tstamp = now := rfl

/-! ## Acknowledging it -/

@[simp] theorem acknowledge_frame (c b a : Bool) (r : Regs) : (acknowledge c b a r).frame = r.frame := rfl
@[simp] theorem acknowledge_wbuf (c b a : Bool) (r : Regs) : (acknowledge c b a r).wbuf = r.wbuf := rfl
@[simp] theorem acknowledge_symcnt (c b a : Bool) (r : Regs) : (acknowledge c b a r).symcnt = r.symcnt := rfl
@[simp] theorem acknowledge_hold (c b a : Bool) (r : Regs) : (acknowledge c b a r).hold = r.hold := rfl
@[simp] theorem acknowledge_invAct (c b a : Bool) (r : Regs) : (acknowledge c b a r).invAct = r.invAct := rfl
@[simp] theorem acknowledge_violAct (c b a : Bool) (r : Regs) : (acknowledge c b a r).violAct = r.violAct := rfl
@[simp] theorem acknowledge_dialect (c b a : Bool) (r : Regs) : (acknowledge c b a r).dialect = r.dialect := rfl
@[simp] theorem acknowledge_inv (c b a : Bool) (r : Regs) : (acknowledge c b a r).inv = r.inv := rfl
@[simp] theorem acknowledge_result (c b a : Bool) (r : Regs) : (acknowledge c b a r).result = r.result := rfl
@[simp] theorem acknowledge_newFlag (c b a : Bool) (r : Regs) : (acknowledge c b a r).newFlag = ackedFlag a r.newFlag := rfl
@[simp] theorem acknowledge_ovr (c b a : Bool) (r : Regs) : (acknowledge c b a r).ovr = ackedFlag b r.ovr := rfl
@[simp] theorem acknowledge_cmderr (c b a : Bool) (r : Regs) : (acknowledge c b a r).cmderr = ackedFlag c r.cmderr := rfl
@[simp] theorem acknowledge_tstamp (c b a : Bool) (r : Regs) : (acknowledge c b a r).tstamp = r.tstamp := rfl

/-! ## An illegal command -/

@[simp] theorem illegalCommand_frame  (r : Regs) : (illegalCommand r).frame = r.frame := rfl
@[simp] theorem illegalCommand_wbuf  (r : Regs) : (illegalCommand r).wbuf = r.wbuf := rfl
@[simp] theorem illegalCommand_symcnt  (r : Regs) : (illegalCommand r).symcnt = r.symcnt := rfl
@[simp] theorem illegalCommand_hold  (r : Regs) : (illegalCommand r).hold = r.hold := rfl
@[simp] theorem illegalCommand_invAct  (r : Regs) : (illegalCommand r).invAct = r.invAct := rfl
@[simp] theorem illegalCommand_violAct  (r : Regs) : (illegalCommand r).violAct = r.violAct := rfl
@[simp] theorem illegalCommand_dialect  (r : Regs) : (illegalCommand r).dialect = r.dialect := rfl
@[simp] theorem illegalCommand_inv  (r : Regs) : (illegalCommand r).inv = r.inv := rfl
@[simp] theorem illegalCommand_result  (r : Regs) : (illegalCommand r).result = r.result := rfl
@[simp] theorem illegalCommand_newFlag  (r : Regs) : (illegalCommand r).newFlag = r.newFlag := rfl
@[simp] theorem illegalCommand_ovr  (r : Regs) : (illegalCommand r).ovr = r.ovr := rfl
@[simp] theorem illegalCommand_cmderr  (r : Regs) : (illegalCommand r).cmderr = true := rfl
@[simp] theorem illegalCommand_tstamp  (r : Regs) : (illegalCommand r).tstamp = r.tstamp := rfl

/-! ## Committing a frame -/

@[simp] theorem commitFrame_frame (res : Result) (r : Regs) : (commitFrame res r).frame = Memory.ofBits r.wbuf := by simp only [commitFrame]
@[simp] theorem commitFrame_wbuf (res : Result) (r : Regs) : (commitFrame res r).wbuf = r.wbuf := by simp only [commitFrame]
@[simp] theorem commitFrame_symcnt (res : Result) (r : Regs) : (commitFrame res r).symcnt = r.symcnt := by simp only [commitFrame]
@[simp] theorem commitFrame_hold (res : Result) (r : Regs) : (commitFrame res r).hold = r.hold := by simp only [commitFrame]
@[simp] theorem commitFrame_invAct (res : Result) (r : Regs) : (commitFrame res r).invAct = r.invAct := by simp only [commitFrame]
@[simp] theorem commitFrame_violAct (res : Result) (r : Regs) : (commitFrame res r).violAct = r.violAct := by simp only [commitFrame]
@[simp] theorem commitFrame_dialect (res : Result) (r : Regs) : (commitFrame res r).dialect = r.dialect := by simp only [commitFrame]
@[simp] theorem commitFrame_inv (res : Result) (r : Regs) : (commitFrame res r).inv = r.inv := by simp only [commitFrame]
@[simp] theorem commitFrame_result (res : Result) (r : Regs) : (commitFrame res r).result = res := by simp only [commitFrame]
@[simp] theorem commitFrame_newFlag (res : Result) (r : Regs) : (commitFrame res r).newFlag = r.newFlag := by simp only [commitFrame]
@[simp] theorem commitFrame_ovr (res : Result) (r : Regs) : (commitFrame res r).ovr = r.ovr := by simp only [commitFrame]
@[simp] theorem commitFrame_cmderr (res : Result) (r : Regs) : (commitFrame res r).cmderr = r.cmderr := by simp only [commitFrame]
@[simp] theorem commitFrame_tstamp (res : Result) (r : Regs) : (commitFrame res r).tstamp = r.tstamp := by simp only [commitFrame]

end Sys2Proof.Machine
end

