-- ==== Sys2Proof/Laws/Operations.lean ====
section
/-! SUPPORT. For each shared operation, once, everything it can do; later proofs cite these lemmas instead of unfolding
the operation. -/
namespace Sys2Proof.Machine

/-! ## Answers -/

@[simp] theorem andThen_next (s : State) (f : State → Answer) : andThen (.next s) f = f s := rfl

/-- A sequence answers a next state exactly when both parts do. -/
theorem andThen_eq_next {a : Answer} {f : State → Answer} {t : State} :
    andThen a f = .next t ↔ ∃ s, a = .next s ∧ f s = .next t := by
  cases a <;> simp [andThen]

@[simp] theorem runOps_nil (s : State) : runOps [] s = .next s := rfl

theorem runOps_cons (i : Instr) (is : List Instr) (s : State) : runOps (i :: is) s = andThen (exec i s) (runOps is) := rfl

theorem runOps_append (is js : List Instr) (s : State) :
    runOps (is ++ js) s = andThen (runOps is s) (runOps js) := by
  induction is generalizing s with
  | nil => rfl
  | cons i is ih =>
    simp only [List.cons_append, runOps_cons]
    cases exec i s with
    | next t => exact ih t
    | fault r => rfl
    | refused r => rfl

/-! ## Driving ports -/

/-- A selected operation of a valid frame sets its lane's record; any other changes nothing. -/
theorem State.drive_cases (s : State) (k : Lane) (sel : Bool) (f : LaneOut → LaneOut) :
    (s.regs.frameValid = true ∧ sel = true ∧ s.drive k sel f = s.setLane k (f (s.laneRec k))) ∨
      ((s.regs.frameValid = false ∨ sel = false) ∧ s.drive k sel f = s) := by
  unfold State.drive
  cases h : s.regs.frameValid <;> cases sel <;> simp

theorem State.drive_selected {s : State} {k : Lane} {sel : Bool} {f : LaneOut → LaneOut}
    (hv : s.regs.frameValid = true) (hs : sel = true) : s.drive k sel f = s.setLane k (f (s.laneRec k)) := by
  simp [State.drive, hv, hs]

@[simp] theorem State.drive_regs (s : State) (k : Lane) (sel : Bool) (f : LaneOut → LaneOut) :
    (s.drive k sel f).regs = s.regs := by
  rcases s.drive_cases k sel f with ⟨-, -, h⟩ | ⟨-, h⟩ <;> simp [h]
@[simp] theorem State.drive_pins (s : State) (k : Lane) (sel : Bool) (f : LaneOut → LaneOut) :
    (s.drive k sel f).pins = s.pins := by
  rcases s.drive_cases k sel f with ⟨-, -, h⟩ | ⟨-, h⟩ <;> simp [h]
@[simp] theorem State.drive_script (s : State) (k : Lane) (sel : Bool) (f : LaneOut → LaneOut) :
    (s.drive k sel f).script = s.script := by
  rcases s.drive_cases k sel f with ⟨-, -, h⟩ | ⟨-, h⟩ <;> simp [h]

/-- A beacon operation sets its lane's record when the lane has a payload it is selected for; any other changes
nothing. -/
theorem State.driveBcn_cases (s : State) (k : Lane) (sel : PayloadLen → PayloadBits → Bool)
    (f : PayloadBits → BcnOut → BcnOut) :
    (∃ p, s.regs.payload k = some p ∧ sel p.1 p.2 = true ∧
        s.driveBcn k sel f = s.setLane k
          { s.laneRec k with bcn := some (f p.2 ((s.laneRec k).bcn.getD (BcnOut.opened s.regs p))) }) ∨
      ((∀ p, s.regs.payload k = some p → sel p.1 p.2 = false) ∧ s.driveBcn k sel f = s) := by
  unfold State.driveBcn
  cases h : s.regs.payload k with
  | none => simp
  | some p => cases hs : sel p.1 p.2 <;> simp [hs]

@[simp] theorem State.driveBcn_regs (s : State) (k : Lane) (sel : PayloadLen → PayloadBits → Bool)
    (f : PayloadBits → BcnOut → BcnOut) : (s.driveBcn k sel f).regs = s.regs := by
  rcases s.driveBcn_cases k sel f with ⟨p, -, -, h⟩ | ⟨-, h⟩ <;> simp [h]
@[simp] theorem State.driveBcn_pins (s : State) (k : Lane) (sel : PayloadLen → PayloadBits → Bool)
    (f : PayloadBits → BcnOut → BcnOut) : (s.driveBcn k sel f).pins = s.pins := by
  rcases s.driveBcn_cases k sel f with ⟨p, -, -, h⟩ | ⟨-, h⟩ <;> simp [h]
@[simp] theorem State.driveBcn_script (s : State) (k : Lane) (sel : PayloadLen → PayloadBits → Bool)
    (f : PayloadBits → BcnOut → BcnOut) : (s.driveBcn k sel f).script = s.script := by
  rcases s.driveBcn_cases k sel f with ⟨p, -, -, h⟩ | ⟨-, h⟩ <;> simp [h]

/-! ## The line decoder -/

/-- What makes a pair operation ready. -/
theorem pairReady_iff {a : Bool} {r : Regs} :
    pairReady a r = true ↔ r.hold = a ∧ r.symcnt.getLsbD 0 = true ∧ r.symcnt.toNat < 1200 := by
  simp [pairReady, Config.N_SYM, and_assoc]

/-- A legal pair writes one bit of WBUF or, not ready, nothing. -/
theorem legalPair_cases (a : Bool) (r : Regs) :
    (pairReady a r = true ∧ legalPair a r = { r with wbuf := memWrite r.wbuf (pairIndex r) (a ^^ r.invAct) }) ∨
      (pairReady a r = false ∧ legalPair a r = r) := by
  unfold legalPair
  cases pairReady a r <;> simp

/-- A violating pair sets VIOL_ACT or, not ready, nothing. -/
theorem violatingPair_cases (a : Bool) (r : Regs) :
    (pairReady a r = true ∧ violatingPair a r = { r with violAct := true }) ∨
      (pairReady a r = false ∧ violatingPair a r = r) := by
  unfold violatingPair
  cases pairReady a r <;> simp

/-- Everything a pair decode can do: at an odd position below 1200, a pair of unequal symbols writes its bit and a
pair of equal symbols sets VIOL_ACT. -/
theorem pairDecode_spec {b : Bool} {r : Regs} (h0 : r.symcnt.getLsbD 0 = true) (h1 : r.symcnt.toNat < 1200) :
    pairDecode b r =
      if r.hold = b then { r with violAct := true }
      else { r with wbuf := memWrite r.wbuf (pairIndex r) (r.hold ^^ r.invAct) } := by
  have hr : pairReady r.hold r = true := pairReady_iff.mpr ⟨rfl, h0, h1⟩
  unfold pairDecode
  split <;> rename_i hh <;>
    simp [pair01Regs, pair10Regs, pair00Regs, pair11Regs, legalPair, violatingPair, ← hh, hr]

/-! ## The ends of a block -/

/-- Everything a good-length block end can do. -/
theorem endBlockGood_cases (now : Timestamp) (r : Regs) (h : r.symcnt = 1199) :
    (r.violAct = true ∧ endBlockGood now r = blockEndCommon now .lineViolation { r with frame := [] }) ∨
      (r.violAct = false ∧
        endBlockGood now r = blockEndCommon now (syncResult r.wbuf) { r with frame := Memory.ofBits r.wbuf }) := by
  unfold endBlockGood
  cases hv : r.violAct
  · right
    refine ⟨rfl, ?_⟩
    cases hm : syncMatch r.wbuf <;>
      simp [syncCommit, syncMatchRegs, syncMissRegs, commitReady, commitFrame, syncResult, blockEndCommon,
        ovrAfterBlockEnd, hm, h, hv]
  · left
    simp

/-! ## Codes -/

@[simp] theorem Dialect.ofCode_code (d : Dialect) : Dialect.ofCode d.code = some d := by cases d <;> rfl

theorem Dialect.ofCode_eq_none {dd : BitVec 2} : Dialect.ofCode dd = none ↔ dd = 3 := by
  revert dd; decide

theorem Dialect.code_of_ofCode {dd : BitVec 2} {d : Dialect} (h : Dialect.ofCode dd = some d) : d.code = dd := by
  revert dd; cases d <;> decide

end Sys2Proof.Machine
end

