-- ==== Sys2Proof/Laws/PerInstr.lean ====
section
/-! SUPPORT. The per-instruction family EncodingMatchesRow: the word that encodes an instruction is of the instruction's
format and has, under the mask of its opcode-table row, the row's match. -/
namespace Sys2Proof.Laws.EncodingMatchesRow

/-- The format of a coded word. -/
def codedFormat : Coded → Format
  | .cmd _ => .cmd
  | .pair _ => .pair
  | .frame _ => .frame
  | .msg _ _ _ => .msg
  | .payload _ _ _ => .payload

/-- The bits of a coded word as a number of its format's width. -/
def codedNat : Coded → Nat
  | .cmd c => c.toNat
  | .pair p => p.toNat
  | .frame f => f.toNat
  | .msg _ _ M => M.toNat
  | .payload _ _ P => P.toNat

/-- The word of `i` is of its format and matches its row of the opcode table (30_encoding R119). -/
def Statement (i : Instr) : Prop :=
  i.wellFormed = true → codedFormat (encode i) = i.format ∧ codedNat (encode i) &&& i.row.1 = i.row.2

theorem nop : Statement .nop := by unfold Statement; decide
theorem sym (l b : Bool) : Statement (.sym l b) := by
  unfold Statement; cases l <;> cases b <;> decide
theorem setdialect (dd : BitVec 2) : Statement (.setdialect dd) := by
  unfold Statement; revert dd; decide
theorem setinv (v : Bool) : Statement (.setinv v) := by
  unfold Statement; cases v <;> decide
theorem ack (c b a : Bool) : Statement (.ack c b a) := by
  unfold Statement; cases c <;> cases b <;> cases a <;> decide
theorem srst : Statement .srst := by unfold Statement; decide
theorem pair01 : Statement .pair01 := by unfold Statement; decide
theorem pair10 : Statement .pair10 := by unfold Statement; decide
theorem pair00 : Statement .pair00 := by unfold Statement; decide
theorem pair11 : Statement .pair11 := by unfold Statement; decide
theorem syncMatch : Statement .syncMatch := by unfold Statement; decide +kernel
theorem syncMiss : Statement .syncMiss := by unfold Statement; decide +kernel
theorem msgWords (k : Lane) : Statement (.msgWords k) := by unfold Statement; cases k <;> decide
theorem fmtHk (k : Lane) : Statement (.fmtHk k) := by unfold Statement; cases k <;> decide
theorem fmtShort (k : Lane) : Statement (.fmtShort k) := by unfold Statement; cases k <;> decide
theorem fmtLong (k : Lane) : Statement (.fmtLong k) := by unfold Statement; cases k <;> decide
theorem chkS2Short (k : Lane) : Statement (.chkS2Short k) := by unfold Statement; cases k <;> decide
theorem chkS2Long (k : Lane) : Statement (.chkS2Long k) := by unfold Statement; cases k <;> decide
theorem chkS3Short (k : Lane) : Statement (.chkS3Short k) := by unfold Statement; cases k <;> decide
theorem chkS3Long (k : Lane) : Statement (.chkS3Long k) := by unfold Statement; cases k <;> decide
theorem chkC2Short (k : Lane) : Statement (.chkC2Short k) := by unfold Statement; cases k <;> decide
theorem chkC2Long (k : Lane) : Statement (.chkC2Long k) := by unfold Statement; cases k <;> decide
theorem w0Level (k : Lane) : Statement (.w0Level k) := by unfold Statement; cases k <;> decide
theorem w0Rt (k : Lane) : Statement (.w0Rt k) := by unfold Statement; cases k <;> decide
theorem w0Latest (k : Lane) : Statement (.w0Latest k) := by unfold Statement; cases k <;> decide
theorem w0S2Dru (k : Lane) : Statement (.w0S2Dru k) := by unfold Statement; cases k <;> decide
theorem w0S2Pseudo (k : Lane) : Statement (.w0S2Pseudo k) := by unfold Statement; cases k <;> decide
theorem w0S3Type (k : Lane) : Statement (.w0S3Type k) := by unfold Statement; cases k <;> decide
theorem w0S3Serial (k : Lane) : Statement (.w0S3Serial k) := by unfold Statement; cases k <;> decide
theorem w0C2 (k : Lane) : Statement (.w0C2 k) := by unfold Statement; cases k <;> decide
theorem tcSarsat (k : Lane) : Statement (.tcSarsat k) := by unfold Statement; cases k <;> decide
theorem tcC2 (k : Lane) : Statement (.tcC2 k) := by unfold Statement; cases k <;> decide
theorem payShortS2 (k : Lane) : Statement (.payShortS2 k) := by unfold Statement; cases k <;> decide
theorem payShortS3 (k : Lane) : Statement (.payShortS3 k) := by unfold Statement; cases k <;> decide
theorem payShortC2 (k : Lane) : Statement (.payShortC2 k) := by unfold Statement; cases k <;> decide
theorem payLongS2 (k : Lane) : Statement (.payLongS2 k) := by unfold Statement; cases k <;> decide
theorem payLongS3 (k : Lane) : Statement (.payLongS3 k) := by unfold Statement; cases k <;> decide
theorem payLongC2 (k : Lane) : Statement (.payLongC2 k) := by unfold Statement; cases k <;> decide
theorem dopShort (k : Lane) : Statement (.dopShort k) := by unfold Statement; cases k <;> decide
theorem dopLong (k : Lane) : Statement (.dopLong k) := by unfold Statement; cases k <;> decide
theorem bcnHdr (k : Lane) : Statement (.bcnHdr k) := by unfold Statement; cases k <;> decide
theorem bcnCountry (k : Lane) : Statement (.bcnCountry k) := by unfold Statement; cases k <;> decide
theorem bcnBch1 (k : Lane) : Statement (.bcnBch1 k) := by unfold Statement; cases k <;> decide
theorem bcnBch2 (k : Lane) : Statement (.bcnBch2 k) := by unfold Statement; cases k <;> decide
theorem protoStdnat (k : Lane) : Statement (.protoStdnat k) := by unfold Statement; cases k <;> decide
theorem protoUser0 (k : Lane) : Statement (.protoUser0 k) := by unfold Statement; cases k <;> decide
theorem protoUser1 (k : Lane) : Statement (.protoUser1 k) := by unfold Statement; cases k <;> decide
theorem protoUser2 (k : Lane) : Statement (.protoUser2 k) := by unfold Statement; cases k <;> decide
theorem protoUser3 (k : Lane) : Statement (.protoUser3 k) := by unfold Statement; cases k <;> decide
theorem protoUser4 (k : Lane) : Statement (.protoUser4 k) := by unfold Statement; cases k <;> decide
theorem protoUser5 (k : Lane) : Statement (.protoUser5 k) := by unfold Statement; cases k <;> decide
theorem protoUser6 (k : Lane) : Statement (.protoUser6 k) := by unfold Statement; cases k <;> decide
theorem protoUser7 (k : Lane) : Statement (.protoUser7 k) := by unfold Statement; cases k <;> decide
theorem bcnPos (k : Lane) : Statement (.bcnPos k) := by unfold Statement; cases k <;> decide

end Sys2Proof.Laws.EncodingMatchesRow
end

