-- ==== Sys2Proof/Laws/Ports.lean ====
section
/-! SUPPORT. What each port function shows of a present and of an absent field or record (10_state R55); later proofs cite
these lemmas instead of unfolding a port. -/
namespace Sys2Proof.Machine

variable {α : Type} {w : Nat}

@[simp] theorem portOf_none : portOf (none : Option (BitVec w)) = .absent := rfl
@[simp] theorem portOf_some (v : BitVec w) : portOf (some v) = { present := true, value := v } := rfl

@[simp] theorem Port.absent_present : (Port.absent : Port w).present = false := rfl
@[simp] theorem Port.absent_value : (Port.absent : Port w).value = 0 := rfl

/-- The port's present bit says whether the field is there. -/
@[simp] theorem portOf_present (o : Option (BitVec w)) : (portOf o).present = o.isSome := by cases o <;> rfl

/-- A port shows the absent form exactly when its field is absent. -/
theorem portOf_eq_absent {o : Option (BitVec w)} : portOf o = .absent ↔ o = none := by
  cases o <;> simp [Port.absent]

@[simp] theorem fieldPort_none (f : α → Option (BitVec w)) : fieldPort none f = .absent := rfl
@[simp] theorem fieldPort_some (a : α) (f : α → Option (BitVec w)) : fieldPort (some a) f = portOf (f a) := rfl

@[simp] theorem flagPort_none (f : α → Option Bool) : flagPort none f = .absent := rfl
@[simp] theorem flagPort_some (a : α) (f : α → Option Bool) :
    flagPort (some a) f = portOf ((f a).map BitVec.ofBool) := rfl

@[simp] theorem valuePort_none (f : α → BitVec w) : valuePort none f = 0 := rfl
@[simp] theorem valuePort_some (a : α) (f : α → BitVec w) : valuePort (some a) f = f a := rfl

@[simp] theorem bitPort_none (f : α → Bool) : bitPort none f = false := rfl
@[simp] theorem bitPort_some (a : α) (f : α → Bool) : bitPort (some a) f = f a := rfl

end Sys2Proof.Machine
end

