-- ==== Sys2Proof/Tests/Slice0.lean ====
section
/-! SUPPORT. The model's own tests: words written out from the spec's encodings, the spec's worked examples one step at a
time, and for each statement with hypotheses a state that meets them. -/
set_option Elab.async false

namespace Sys2Proof.Tests
open Sys2Proof.Machine

/-! ## Helpers -/

/-- Frame F1 of 95_test_vectors: three messages and the sync word. -/
def f1 : FrameBits :=
  0xD60BAA2468AD4CD9C666FF56789D55556D5AFF9F8E000001#192 ++ 0xD6F815FFFFFED3C77806E57F2ACAAF37A65A08B4B9002710#192 ++
    0xD60000000003CE3E00800000000000000000000055000001#192 ++ 0x42BB1F#24

/-- F1 with check bits set so that messages 0 and 1 are format-valid under every dialect, and word2 of message 1 given. -/
def f2 (w2 : Word24) : FrameBits :=
  0xD60AAA2468AD4CD9C666FF56789D55556D5AFF9F8E000001#192 ++
    (0xD6F915FFFFFE#48 ++ w2 ++ 0x86E57F2ACAAF37A65A08B4B9002710#120) ++
    0xD60000000003CE3E00800000000000000000000055000001#192 ++ 0x42BB1F#24

/-- A state holding a frame as a valid one under a dialect, nothing on the pins. -/
def held (d : Dialect) (f : FrameBits) : State :=
  { State.reset with regs := { Regs.reset with frame := Memory.ofBits f, result := .syncOk, dialect := d } }

/-- A state in the middle of a block. -/
def mid (n : Nat) (hold viol : Bool) (w : FrameBits) : State :=
  { State.reset with regs := { Regs.reset with symcnt := BitVec.ofNat 11 n, hold := hold, violAct := viol, wbuf := w } }

/-- A state with a command byte on the pins. -/
def present (c : Byte) (s : State) : State := { s with pins := { s.pins with cmdValid := true, cmd := c } }

/-- The registers of an answer. -/
def regsOf : Answer → Option Regs
  | .next t => some t.regs
  | _ => none

/-- A lane record of an answer. -/
def laneOf (k : Lane) : Answer → Option LaneOut
  | .next t => t.out.lane k
  | _ => none

/-- A beacon record of an answer. -/
def bcnOf (k : Lane) (a : Answer) : Option BcnOut := (laneOf k a).bind (·.bcn)

/-! ## Well-formedness -/

theorem test_setdialect_three_is_ill_formed : (Instr.setdialect 3).wellFormed = false := by decide
theorem test_setdialect_two_is_well_formed : (Instr.setdialect 2).wellFormed = true := by decide

/-! ## Decoding: every constructor's word, from 30_encoding's tables -/

theorem test_decode_commands :
    decodeCmd 0b00000000 = .instr .nop ∧ decodeCmd 0b00010010 = .instr (.sym true false) ∧
    decodeCmd 0b00010001 = .instr (.sym false true) ∧ decodeCmd 0b00100010 = .instr (.setdialect 2) ∧
    decodeCmd 0b00110001 = .instr (.setinv true) ∧ decodeCmd 0b01000100 = .instr (.ack true false false) ∧
    decodeCmd 0b01000001 = .instr (.ack false false true) ∧ decodeCmd 0b01010000 = .instr .srst := by decide

theorem test_decode_illegal_bytes :
    decodeCmd 0x23 = .illegal .reservedDialect ∧ decodeCmd 0x14 = .illegal (.reservedArg 1 4) ∧
    decodeCmd 0x48 = .illegal (.reservedArg 4 8) ∧ decodeCmd 0x60 = .illegal (.reservedOp 6) := by decide

theorem test_decode_pairs :
    decodePair false true = .pair01 ∧ decodePair true false = .pair10 ∧ decodePair false false = .pair00 ∧
    decodePair true true = .pair11 := by decide

theorem test_decode_frames : decodeFrame f1 = .syncMatch ∧ decodeFrame (f1 - 1) = .syncMiss := by decide +kernel

/-- A SHORT message, format-valid under SARSAT-SARP-2: `w0[15]` = 0, word7 = 1. -/
theorem test_decode_short_message_of_sarp2 :
    decodeMsg .k0 .s2 0xD60AAA2468AD4CD9C666FF56789D55556D5AFF9F8E000001#192 =
      [.msgWords .k0, .fmtShort .k0, .chkS2Short .k0, .w0Level .k0, .w0Rt .k0, .w0Latest .k0, .w0S2Dru .k0,
        .w0S2Pseudo .k0, .tcSarsat .k0, .payShortS2 .k0, .dopShort .k0] := by decide +kernel

/-- Message 0 of F1 under SARSAT-SARP-3: `w2[0]` = 0. -/
theorem test_decode_short_message_of_sarp3 :
    decodeMsg .k1 .s3 0xD60BAA2468AD4CD9C666FF56789D55556D5AFF9F8E000001#192 =
      [.msgWords .k1, .fmtShort .k1, .chkS3Short .k1, .w0Level .k1, .w0Rt .k1, .w0Latest .k1, .w0S3Type .k1,
        .w0S3Serial .k1, .tcSarsat .k1, .payShortS3 .k1, .dopShort .k1] := by decide +kernel

/-- Message 0 of F1 under COSPAS-SARP-2: `w3[0]` = 0. -/
theorem test_decode_short_message_of_cospas :
    decodeMsg .k2 .c2 0xD60BAA2468AD4CD9C666FF56789D55556D5AFF9F8E000001#192 =
      [.msgWords .k2, .fmtShort .k2, .chkC2Short .k2, .w0C2 .k2, .tcC2 .k2, .payShortC2 .k2, .dopShort .k2] := by
  decide +kernel

/-- LONG messages, format-valid: `w0[15]`, `w2[0]`, `w3[0]` = 1. -/
theorem test_decode_long_messages :
    .chkS2Long .k0 ∈ decodeMsg .k0 .s2 0xD6F915FFFFFED3C77806E57F2ACAAF37A65A08B4B9002710#192 ∧
    .payLongS2 .k0 ∈ decodeMsg .k0 .s2 0xD6F915FFFFFED3C77806E57F2ACAAF37A65A08B4B9002710#192 ∧
    .chkS3Long .k0 ∈ decodeMsg .k0 .s3 0xD6F815FFFFFED3C77806E57F2ACAAF37A65A08B4B9002710#192 ∧
    .payLongS3 .k0 ∈ decodeMsg .k0 .s3 0xD6F815FFFFFED3C77806E57F2ACAAF37A65A08B4B9002710#192 ∧
    .chkC2Long .k0 ∈ decodeMsg .k0 .c2 0xD6F815FFFFFED3C77886E57F2ACAAF37A65A08B4B9002710#192 ∧
    .payLongC2 .k0 ∈ decodeMsg .k0 .c2 0xD6F815FFFFFED3C77886E57F2ACAAF37A65A08B4B9002710#192 ∧
    .fmtLong .k0 ∈ decodeMsg .k0 .c2 0#192 ∧
    .dopLong .k0 ∈ decodeMsg .k0 .c2 0xD6F815FFFFFED3C77886E57F2ACAAF37A65A08B4B9002710#192 := by decide +kernel

/-- Message 2 of F1: HOUSEKEEPING although word7 is 1 (V18). -/
theorem test_decode_housekeeping_message :
    decodeMsg .k0 .c2 0xD60000000003CE3E00800000000000000000000055000001#192 =
      [.msgWords .k0, .fmtHk .k0, .w0C2 .k0, .tcC2 .k0] := by decide +kernel

theorem test_decode_payloads :
    decodePayload .k0 .len120 0xD3C77806E57F2ACAAF37A65A08B4B9#120 =
      [.bcnHdr .k0, .bcnCountry .k0, .bcnBch1 .k0, .bcnBch2 .k0, .protoUser1 .k0, .bcnPos .k0] ∧
    decodePayload .k0 .len88 0x337FAB3C4EAAAAB6AD7FCF00000000#120 =
      [.bcnHdr .k0, .bcnCountry .k0, .bcnBch1 .k0, .protoStdnat .k0] := by decide +kernel

theorem test_decode_user_protocols :
    protoOp .k0 0xD3C37806E57F2ACAAF37A65A08B4B9#120 = .protoUser0 .k0 ∧
    protoOp .k0 0xD3CB7806E57F2ACAAF37A65A08B4B9#120 = .protoUser2 .k0 ∧
    protoOp .k0 0xD3CF7806E57F2ACAAF37A65A08B4B9#120 = .protoUser3 .k0 ∧
    protoOp .k0 0xD3D37806E57F2ACAAF37A65A08B4B9#120 = .protoUser4 .k0 ∧
    protoOp .k0 0xD3D77806E57F2ACAAF37A65A08B4B9#120 = .protoUser5 .k0 ∧
    protoOp .k0 0x4CD9C666FF56789D55556D00000000#120 = .protoUser6 .k0 ∧
    protoOp .k0 0xD3DF7806E57F2ACAAF37A65A08B4B9#120 = .protoUser7 .k0 := by decide +kernel

/-- The table's own numbering: a row's word, placed, is run by the very next step. -/
theorem test_table_words :
    decodeTableWord 8 0x13 = some (.sym true true) ∧ decodeTableWord 8 0x23 = none ∧
    decodeTableWord 2 1 = some .pair01 ∧ decodeTableWord 8 2 = some .pair10 ∧ decodeTableWord 600 0 = some .syncMiss ∧
    decodeTableWord 192 1 = some (.fmtShort .k0) ∧
    decodeTableWord 120 0x401800000000000000000000000000 = some (.protoUser6 .k0) := by decide +kernel

theorem test_fetch_words :
    regsOf (step (State.reset.withFetchWord 8 0x31)) = some { Regs.reset with inv := true } ∧
    (regsOf (step (State.reset.withFetchWord 2 3))).map (·.violAct) = some true ∧
    (laneOf .k0 (step (State.reset.withFetchWord 192 1))).map (·.format) = some 0#2 ∧
    (bcnOf .k0 (step (State.reset.withFetchWord 120 0x401800000000000000000000000000))).map (·.protocolNum) =
      some (some 6#3) := by decide +kernel

/-! ## Host commands: the examples of 40_host_commands -/

theorem test_nop : exec .nop (held .s3 f1) = .next (held .s3 f1) := rfl

/-- R131: from reset, SYM 1, SYM 0. -/
theorem test_sym_pair : regsOf (runOps [.sym false true, .sym false false] State.reset) =
    some { Regs.reset with symcnt := 2, hold := true, wbuf := 1#600 <<< 599 } := by decide +kernel

/-- R134: from reset, SETINV 1, SYM 0, SYM 1. -/
theorem test_setinv_before_block : (regsOf (runOps [.setinv true, .sym false false, .sym false true] State.reset)).map
    (fun r => (r.invAct, bitAt r.wbuf 0)) = some (true, true) := by decide +kernel

/-- The last symbol of F1 commits it (V1). -/
theorem test_sym_last_commits : (regsOf (exec (.sym true false) (mid 1199 true false f1))).map
    (fun r => (r.result, r.newFlag, r.symcnt, r.frame.get 74)) = some (.syncOk, true, 0#11, 0x1F#8) := by decide +kernel

/-- R133: SETDIALECT 2, and the ill-formed code 3. -/
theorem test_setdialect : (regsOf (exec (.setdialect 2) State.reset)).map (·.dialect) = some .c2 ∧
    regsOf (exec (.setdialect 3) State.reset) = some { Regs.reset with cmderr := true } := by decide +kernel

/-- R135: NEW and OVR set, ACK 1 clears NEW only. -/
theorem test_ack : (regsOf (exec (.ack false false true)
    { State.reset with regs := { Regs.reset with newFlag := true, ovr := true } })).map
      (fun r => (r.newFlag, r.ovr)) = some (false, true) := by decide

theorem test_srst : regsOf (exec .srst (held .c2 f1)) = some Regs.reset := by decide +kernel

/-- R137: from reset, `.byte 0x23`. -/
theorem test_illegal_byte : regsOf (step (present 0x23 State.reset)) = some { Regs.reset with cmderr := true } := by
  decide +kernel

/-! ## Pair and sync operations: the examples of 41_manchester and 42_frame_sync -/

/-- R153: PAIR.01 at j = 3 clears `WBUF[3]`. -/
theorem test_pair01 : (regsOf (exec .pair01 (mid 7 false false (~~~ 0#600)))).map (fun r => (bitAt r.wbuf 3, bitAt r.wbuf 4)) =
    some (false, true) := by decide +kernel

/-- R154: PAIR.10 at j = 0 under inversion clears `WBUF[0]`; without it, it sets it. -/
theorem test_pair10 : (regsOf (exec .pair10 (mid 1 true false 0))).map (fun r => bitAt r.wbuf 0) = some true := by
  decide +kernel

theorem test_pair00 : (regsOf (exec .pair00 (mid 35 false false 0))).map (·.violAct) = some true := by decide
theorem test_pair11 : (regsOf (exec .pair11 (mid 1 true false 0))).map (·.violAct) = some true := by decide

theorem test_sync_match : (regsOf (exec .syncMatch (mid 1199 true false f1))).map (·.result) = some .syncOk := by
  decide +kernel

/-- R173: `B[74]` changed to 0x1E. -/
theorem test_sync_miss : (regsOf (exec .syncMiss (mid 1199 true false (f1 - 1)))).map (·.result) = some .syncFail := by
  decide +kernel

/-! ## Message operations: the examples of 43_message_fields on F1 -/

theorem test_msg_words : (laneOf .k0 (exec (.msgWords .k0) (held .s3 f1))).map (fun L => (L.words.w0, L.words.w7)) =
    some (0xD60BAA#24, 1#24) := by decide +kernel
theorem test_fmt_hk : (laneOf .k2 (exec (.fmtHk .k2) (held .s3 f1))).map (fun L => (L.format, L.fmtChecked)) =
    some (2#2, false) := by decide +kernel
theorem test_fmt_short : (laneOf .k0 (exec (.fmtShort .k0) (held .s3 f1))).map (·.format) = some 0#2 := by decide +kernel
theorem test_fmt_long : (laneOf .k1 (exec (.fmtLong .k1) (held .s3 f1))).map (·.format) = some 1#2 := by decide +kernel
theorem test_chk_s2 : (laneOf .k0 (exec (.chkS2Short .k0) (held .s2 f1))).map (·.fmtValid) = some false ∧
    (laneOf .k1 (exec (.chkS2Long .k1) (held .s2 f1))).map (·.fmtValid) = some false := by decide +kernel
theorem test_chk_s3 : (laneOf .k0 (exec (.chkS3Short .k0) (held .s3 f1))).map (·.fmtValid) = some true ∧
    (laneOf .k1 (exec (.chkS3Long .k1) (held .s3 f1))).map (·.fmtValid) = some true := by decide +kernel
theorem test_chk_c2 : (laneOf .k0 (exec (.chkC2Short .k0) (held .c2 f1))).map (·.fmtValid) = some true ∧
    (laneOf .k1 (exec (.chkC2Long .k1) (held .c2 f1))).map (·.fmtValid) = some false := by decide +kernel
theorem test_w0_level : (laneOf .k0 (exec (.w0Level .k0) (held .s3 f1))).map (·.level) =
    some (some { level := 42#6, levelCdbm := BitVec.ofInt 16 (-11690) }) := by decide +kernel
theorem test_w0_rt : (laneOf .k0 (exec (.w0Rt .k0) (held .s3 f1))).map (·.rt) = some (some false) := by decide +kernel
theorem test_w0_latest : (laneOf .k0 (exec (.w0Latest .k0) (held .s3 f1))).map (·.latest) = some (some true) := by
  decide +kernel
theorem test_w0_s2 : (laneOf .k0 (exec (.w0S2Dru .k0) (held .s2 f1))).map (·.dru) = some (some 3#2) ∧
    (laneOf .k0 (exec (.w0S2Pseudo .k0) (held .s2 f1))).map (·.pseudo) = some (some true) := by decide +kernel
theorem test_w0_s3 : (laneOf .k0 (exec (.w0S3Type .k0) (held .s3 f1))).map (·.csType) = some (some true) ∧
    (laneOf .k0 (exec (.w0S3Serial .k0) (held .s3 f1))).map (·.serial) =
      some (some { serial := 5#3, serialDdb := 501#10 }) := by decide +kernel
theorem test_w0_c2 : (laneOf .k0 (exec (.w0C2 .k0) (held .c2 f1))).map (fun L => (L.w0Supported, L.level)) =
    some (false, none) := by decide +kernel
theorem test_tc : (laneOf .k0 (exec (.tcSarsat .k0) (held .s3 f1))).map (·.timecode) =
      some (some { timecode := 0x123456#23, parityBit := true, parityValid := true }) ∧
    (laneOf .k1 (exec (.tcSarsat .k1) (held .s3 f1))).map (·.timecode) =
      some (some { timecode := 0x7FFFFF#23, parityBit := false, parityValid := false }) := by decide +kernel
theorem test_tc_c2 : (laneOf .k0 (exec (.tcC2 .k0) (held .c2 f1))).map (fun L => (L.tcSupported, L.timecode)) =
    some (false, none) := by decide +kernel
theorem test_pay_short : (laneOf .k0 (exec (.payShortS2 .k0) (held .s2 (f2 0)))).map (·.payload) =
      some (some { len := 88#7, bits := 0x266CE3337FAB3C4EAAAAB600000000#120 }) ∧
    (laneOf .k0 (exec (.payShortS3 .k0) (held .s3 f1))).map (·.payload) =
      some (some { len := 88#7, bits := 0x4CD9C666FF56789D55556D00000000#120 }) ∧
    (laneOf .k0 (exec (.payShortC2 .k0) (held .c2 f1))).map (·.payload) =
      some (some { len := 88#7, bits := 0x337FAB3C4EAAAAB6AD7FCF00000000#120 }) := by decide +kernel
theorem test_pay_long : (laneOf .k1 (exec (.payLongS2 .k1) (held .s2 (f2 0xD3C778)))).map (·.payload) =
      some (some { len := 120#7, bits := 0xE9E3BC4372BF9565579BD32D045A5C#120 }) ∧
    (laneOf .k1 (exec (.payLongS3 .k1) (held .s3 f1))).map (·.payload) =
      some (some { len := 120#7, bits := 0xD3C77806E57F2ACAAF37A65A08B4B9#120 }) ∧
    (laneOf .k1 (exec (.payLongC2 .k1) (held .c2 (f2 0xD3C778)))).map (·.payload) =
      some (some { len := 120#7, bits := 0xC372BF9565579BD32D045A5C801388#120 }) := by decide +kernel
theorem test_dop_short : (laneOf .k0 (exec (.dopShort .k0) (held .s3 f1))).map (·.doppler) =
    some (some { doppler := BitVec.ofInt 23 (-12345), parityBit := false, parityValid := true,
                 absFreqMhz := 406049814825#40 }) := by decide +kernel
theorem test_dop_long : (laneOf .k1 (exec (.dopLong .k1) (held .s3 f1))).map (·.doppler) =
    some (some { doppler := 5000#23, parityBit := false, parityValid := false, absFreqMhz := 406050075000#40 }) := by
  decide +kernel

/-! ## Beacon operations: payloads PA and PB of 44_beacon_payload -/

theorem test_bcn_hdr : (bcnOf .k0 (exec (.bcnHdr .k0) (held .s3 f1))).map (fun B => (B.formatFlag, B.protocolFlag)) =
    some (false, true) := by decide +kernel
theorem test_bcn_country : (bcnOf .k0 (exec (.bcnCountry .k0) (held .s3 f1))).map (·.countryCode) = some 205#10 ∧
    (bcnOf .k0 (exec (.bcnCountry .k0) (held .c2 f1))).map (·.countryCode) = some 823#10 := by decide +kernel
theorem test_bcn_bch1 : (bcnOf .k0 (exec (.bcnBch1 .k0) (held .s3 f1))).map (·.bch1) = some 0x155555#21 := by
  decide +kernel
theorem test_bcn_bch2 : (bcnOf .k1 (exec (.bcnBch2 .k1) (held .s3 f1))).map (·.bch2) = some (some 0xA5C#12) := by
  decide +kernel
theorem test_proto_stdnat : (bcnOf .k0 (exec (.protoStdnat .k0) (held .c2 f1))).map
    (fun B => (B.user, B.protocolNum, B.idKind)) = some (false, none, 0#3) := by decide +kernel
theorem test_proto_user0 : (bcnOf .k1 (exec (.protoUser0 .k1) (held .s3 (f2 0xD3C378)))).map
    (fun B => (B.protocolNum, B.idKind)) = some (some 0#3, 1#3) := by decide +kernel
theorem test_proto_user1 : (bcnOf .k1 (exec (.protoUser1 .k1) (held .s3 f1))).map (fun B => (B.idKind, B.idValue)) =
    some (2#3, some 0x2F00DCAFE55#46) := by decide +kernel
theorem test_proto_user2 : (bcnOf .k1 (exec (.protoUser2 .k1) (held .s3 (f2 0xD3CB78)))).map (·.idKind) = some 3#3 := by
  decide +kernel
theorem test_proto_user3 : (bcnOf .k1 (exec (.protoUser3 .k1) (held .s3 (f2 0xD3CF78)))).map (·.idKind) = some 4#3 := by
  decide +kernel
theorem test_proto_not_decoded :
    (bcnOf .k1 (exec (.protoUser4 .k1) (held .s3 (f2 0xD3D378)))).map (fun B => (B.protocolNum, B.idKind)) =
      some (some 4#3, 0#3) ∧
    (bcnOf .k1 (exec (.protoUser5 .k1) (held .s3 (f2 0xD3D778)))).map (fun B => (B.protocolNum, B.idKind)) =
      some (some 5#3, 0#3) ∧
    (bcnOf .k1 (exec (.protoUser7 .k1) (held .s3 (f2 0xD3DF78)))).map (fun B => (B.protocolNum, B.idKind)) =
      some (some 7#3, 0#3) := by decide +kernel
theorem test_proto_user6 : (bcnOf .k0 (exec (.protoUser6 .k0) (held .s3 f1))).map
    (fun B => (B.protocolNum, B.callsign.map fun c => c.c0)) =
      some (some 6#3, some { code := 0x41#8, miss := false }) := by decide +kernel
theorem test_bcn_pos : (bcnOf .k1 (exec (.bcnPos .k1) (held .s3 f1))).map (·.pos) =
    some (some { source := true, latFlag := false, latDeg := 50#7, latMin4 := 13#4, latMin := 52#6, lonFlag := false,
                 lonDeg := 4#8, lonMin4 := 5#4, lonMin := 20#6 }) := by decide +kernel

/-! ## Witnesses: for each statement with hypotheses, states and operands that meet them, each clause at a boundary of
its range -/

/-- A state with the reset pin high and a command beside it. -/
def resetting (s : State) : State := { s with pins := { s.pins with rst := true, cmdValid := true, cmd := 0x13 } }

/-- A state whose ports are the decode of its registers. -/
def shown (s : State) : State := { s with out := decodeOutputs s.regs }

theorem witness_EncodedWordSelectsItsInstruction : (Instr.setdialect 2).wellFormed = true ∧
    (Instr.setdialect 2).format = .cmd ∧ Instr.pair11.format = .pair ∧ Instr.syncMiss.format = .frame := by decide

theorem witness_LegalByteEncodesItsCommand : decodeCmd 0x22 = .instr (.setdialect 2) := by decide

/-- The ends of every range of the command map. -/
theorem witness_CommandMapIsTheTable :
    decodeCmd 0x00 = .instr .nop ∧ decodeCmd 0x10 = .instr (.sym false false) ∧ decodeCmd 0x13 = .instr (.sym true true) ∧
    decodeCmd 0x20 = .instr (.setdialect 0) ∧ decodeCmd 0x22 = .instr (.setdialect 2) ∧
    decodeCmd 0x30 = .instr (.setinv false) ∧ decodeCmd 0x31 = .instr (.setinv true) ∧
    decodeCmd 0x40 = .instr (.ack false false false) ∧ decodeCmd 0x47 = .instr (.ack true true true) ∧
    decodeCmd 0x50 = .instr .srst ∧
    decodeCmd 0x01 = .illegal (.reservedArg 0 1) ∧ decodeCmd 0x0F = .illegal (.reservedArg 0 15) ∧
    decodeCmd 0x14 = .illegal (.reservedArg 1 4) ∧ decodeCmd 0x1F = .illegal (.reservedArg 1 15) ∧
    decodeCmd 0x23 = .illegal .reservedDialect ∧ decodeCmd 0x2F = .illegal (.reservedArg 2 15) ∧
    decodeCmd 0x32 = .illegal (.reservedArg 3 2) ∧ decodeCmd 0x3F = .illegal (.reservedArg 3 15) ∧
    decodeCmd 0x48 = .illegal (.reservedArg 4 8) ∧ decodeCmd 0x4F = .illegal (.reservedArg 4 15) ∧
    decodeCmd 0x51 = .illegal (.reservedArg 5 1) ∧ decodeCmd 0xFF = .illegal (.reservedOp 15) := by decide

theorem witness_StepRunsTheDecodedCommand :
    (present 0x12 (mid 1199 true false f1)).pins.rst = false ∧ (present 0x12 (mid 1199 true false f1)).pins.cmdValid = true ∧
    decodeCmd (present 0x12 (mid 1199 true false f1)).pins.cmd = .instr (.sym true false) := by decide +kernel

/-- The five cases of a cycle: reset, no command, a command that ends no block, an illegal byte. -/
theorem witness_StepFunctionAssembled :
    (resetting State.reset).pins.rst = true ∧
    (State.reset.pins.rst = false ∧ State.reset.pins.cmdValid = false) ∧
    ((present 0x11 State.reset).pins.rst = false ∧ (present 0x11 State.reset).pins.cmdValid = true ∧
      decodeCmd (present 0x11 State.reset).pins.cmd = .instr (.sym false true)) ∧
    decodeCmd (present 0x23 State.reset).pins.cmd = .illegal .reservedDialect ∧
    (present 0x11 State.reset).pins.instr = some (.sym false true) := by decide

theorem witness_OtherInstructionsLeaveTheFrame : ∃ i : Instr,
    (∀ b, i ≠ .sym true b) ∧ i ≠ .srst ∧ i ≠ .syncMatch ∧ i ≠ .syncMiss := ⟨.sym false true, by decide⟩

theorem witness_LaneOperationsChangeNoState : (Instr.dopLong .k2).format = .msg ∧ (Instr.bcnPos .k2).format = .payload := by
  decide

/-- An operation of another dialect; a pair operation at an even position, at 1200, and of the other symbol; a sync
operation away from its commit, of a violated block and of the other pattern. -/
theorem witness_UnselectedOperationsChangeNothing :
    Instr.w0S2Dru .k0 ∉ (held .s3 f1).regs.ops ∧
    (mid 1198 true false 0).regs.symcnt.toNat % 2 = 0 ∧ 1200 ≤ (mid 1200 true false 0).regs.symcnt.toNat ∧
    (mid 1 true false 0).regs.hold ≠ false ∧
    (mid 1198 true false f1).regs.symcnt.toNat ≠ 1199 ∧ (mid 1199 true true f1).regs.violAct = true ∧
    decodeFrame (mid 1199 true false (f1 - 1)).regs.wbuf = .syncMiss ∧
    decodeFrame (mid 1199 true false f1).regs.wbuf = .syncMatch := by decide +kernel

theorem witness_ResetClearsEveryItem :
    (resetting (held .c2 f1)).pins.resets = true ∧ (present 0x50 (held .c2 f1)).pins.resets = true := by decide

theorem witness_ResetShowsNothing :
    (resetting (held .c2 f1)).pins.resets = true ∧ (present 0x50 (held .c2 f1)).pins.resets = true := by decide

/-- Two steps that leave the four items equal and WBUF and SYMCNT different. -/
theorem witness_OutputsDependOnFourItemsOnly :
    (regsOf (step (held .s3 f1))).map (fun r => (r.frame, r.statusWord, r.cfgWord, r.tstamp)) =
      (regsOf (step (present 0x11 (held .s3 f1)))).map (fun r => (r.frame, r.statusWord, r.cfgWord, r.tstamp)) ∧
    (regsOf (step (held .s3 f1))).map (·.symcnt) ≠ (regsOf (step (present 0x11 (held .s3 f1)))).map (·.symcnt) := by
  decide +kernel

/-- The invariant of a state that holds a frame and waits for the last symbol of an over-length block. -/
theorem witness_StepKeepsTheInvariant : Inv { (held .s3 f1).regs with symcnt := 1200, newFlag := true } :=
  ⟨by decide +kernel, by decide +kernel, by decide +kernel, by decide +kernel, by decide +kernel⟩

theorem witness_NopChangesNothing :
    (State.reset.pins.rst = false ∧ State.reset.pins.cmdValid = false) ∧
    ((present 0 (held .s3 f1)).pins.rst = false ∧ (present 0 (held .s3 f1)).pins.cmd = 0) := by decide

/-- The first and the last even position. -/
theorem witness_SymAtAnEvenPositionIsHeld :
    ((mid 0 true true 0).regs.symcnt.toNat < 1200 ∧ (mid 0 true true 0).regs.symcnt.toNat % 2 = 0) ∧
    ((mid 1198 true true 0).regs.symcnt.toNat < 1200 ∧ (mid 1198 true true 0).regs.symcnt.toNat % 2 = 0) := by decide

/-- The first and the last odd position. -/
theorem witness_SymAtAnOddPositionCompletesAPair :
    ((mid 1 true true 0).regs.symcnt.toNat < 1200 ∧ (mid 1 true true 0).regs.symcnt.toNat % 2 = 1) ∧
    ((mid 1199 true true 0).regs.symcnt.toNat < 1200 ∧ (mid 1199 true true 0).regs.symcnt.toNat % 2 = 1) := by decide

theorem witness_OverlengthSymbolsAreDropped : (mid 1200 true false 0).regs.symcnt.toNat = 1200 := by decide

theorem witness_WrongLengthIsALengthError : ∀ n ∈ [0, 1, 1198, 1200],
    (mid n true false 0).regs.symcnt.toNat ≤ 1200 ∧ (mid n true false 0).regs.symcnt.toNat ≠ 1199 := by decide

/-- A violation in an earlier pair, one in pair 599, and none. -/
theorem witness_FullBlockIsCommittedOrCleared :
    ((mid 1199 true true f1).regs.symcnt.toNat = 1199 ∧ (mid 1199 true true f1).regs.violAct = true) ∧
    (mid 1199 true false f1).regs.hold = true ∧
    ¬ ((mid 1199 true false f1).regs.violAct = true ∨ (mid 1199 true false f1).regs.hold = false) := by decide +kernel

theorem witness_EveryBlockEndRecordsItsOutcome : ∀ n ∈ [0, 1199, 1200], (mid n true false 0).regs.symcnt.toNat ≤ 1200 := by
  decide

theorem witness_SetinvSetsInvOnly : (mid 0 true false 0).regs.symcnt.toNat = 0 ∧
    ∀ n ∈ [1, 1200], 0 < (mid n true false 0).regs.symcnt.toNat ∧ (mid n true false 0).regs.symcnt.toNat ≤ 1200 := by decide

theorem witness_DialectChangeRederivesTheHeldFrame :
    Settled (present 0x22 (shown (held .s3 f1))) ∧
    (present 0x22 (shown (held .s3 f1))).pins.instr = some (.setdialect (BitVec.ofNat 2 (dialectNat .c2))) ∧
    ((present 0x22 (shown (held .s3 f1))).out.lane .k0).isSome = true :=
  ⟨rfl, by decide +kernel, by decide +kernel⟩

theorem witness_SerialBlockEqualsTheBlockFunction :
    State.reset.regs.symcnt.toNat = 0 ∧ [true] ≠ [] := by decide

/-- A block of two symbols with an ACK between them and an illegal byte after it. -/
theorem witness_InterleavedBlockRecordsItsOutcome :
    State.reset.regs.symcnt.toNat = 0 ∧ (cmdPins (symByte false true) 0).symbol.isSome = true ∧
    (∀ q ∈ [cmdPins (symByte false true) 0, cmdPins 0x41 0, cmdPins (symByte true false) 7, cmdPins 0x23 0],
      q.resets = false) ∧
    [cmdPins (symByte false true) 0, cmdPins 0x41 0, cmdPins (symByte true false) 7, cmdPins 0x23 0].filterMap
      Pins.symbol = flagged [true, false] := by decide +kernel

theorem witness_ManchesterCodeIsInvertible : manchesterDecode true [false, true, true, false] = some [true, false] ∧
    [false, false].length % 2 = 0 ∧ manchesterDecode false [false, false] = none := by decide

theorem witness_LegalPairWritesItsBit : ∀ n ∈ [1, 1199],
    (mid n false false 0).regs.symcnt.toNat < 1200 ∧ (mid n false false 0).regs.symcnt.toNat % 2 = 1 ∧
    (mid n false false 0).regs.hold = false ∧ (mid n true false 0).regs.hold = true := by decide

theorem witness_ViolatingPairSetsViolAct : ∀ n ∈ [1, 1199],
    (mid n false false 0).regs.symcnt.toNat < 1200 ∧ (mid n false false 0).regs.symcnt.toNat % 2 = 1 ∧
    (mid n false false 0).regs.hold = false ∧ (mid n true false 0).regs.hold = true := by decide

theorem witness_SymPerformsTheSelectedOperations :
    ((mid 1 true false 0).regs.symcnt.toNat < 1200 ∧ (mid 1 true false 0).regs.symcnt.toNat % 2 = 1) ∧
    ((mid 1199 true false f1).regs.symcnt.toNat = 1199 ∧ (mid 1199 true false f1).regs.violAct = false ∧
      (mid 1199 true false f1).regs.hold ≠ false) := by decide +kernel

theorem witness_SyncMatchShowsThreeMessages :
    (mid 1199 true false f1).regs.symcnt.toNat = 1199 ∧ (mid 1199 true false f1).regs.violAct = false ∧
    decodeFrame (mid 1199 true false f1).regs.wbuf = .syncMatch := by decide +kernel

theorem witness_SyncMissShowsNoMessage :
    (mid 1199 true false (f1 - 1)).regs.symcnt.toNat = 1199 ∧ (mid 1199 true false (f1 - 1)).regs.violAct = false ∧
    decodeFrame (mid 1199 true false (f1 - 1)).regs.wbuf = .syncMiss := by decide +kernel

theorem witness_WordsAreBigEndian : (held .c2 f1).regs.result = .syncOk := by decide +kernel

theorem witness_FormatClassIsDriven : (held .s3 f1).regs.result = .syncOk ∧ IsHk (held .s3 f1).regs .k2 ∧
    IsShort (held .s3 f1).regs .k0 ∧ IsLong (held .s3 f1).regs .k1 := by
  unfold IsHk IsShort IsLong
  decide +kernel

theorem witness_FormatChecksReadTheirBit : ∀ d ∈ [Dialect.s2, .s3, .c2], (held d f1).regs.result = .syncOk ∧
    (held d f1).regs.dialect = d ∧ IsShort (held d f1).regs .k0 ∧ IsLong (held d f1).regs .k1 := by
  unfold IsShort IsLong
  decide +kernel

/-- A step after which a valid frame is held, with a lane of each kind. -/
theorem witness_FormatValidityOfEveryLane : (regsOf (step (held .s3 f1))).map (·.result) = some .syncOk ∧
    ShortValid (held .s3 f1).regs .k0 ∧ LongValid (held .s3 f1).regs .k1 ∧ IsHk (held .s3 f1).regs .k2 := by
  unfold ShortValid LongValid IsShort IsLong IsHk
  decide +kernel

theorem witness_SharedWordZeroFields : ∀ d ∈ [Dialect.s2, .s3],
    (held d f1).regs.result = .syncOk ∧ (held d f1).regs.dialect ≠ .c2 := by decide +kernel

theorem witness_WordZeroFieldsOfSarp2 : (held .s2 f1).regs.result = .syncOk ∧ (held .s2 f1).regs.dialect = .s2 := by
  decide +kernel

theorem witness_WordZeroFieldsOfSarp3 : (held .s3 f1).regs.result = .syncOk ∧ (held .s3 f1).regs.dialect = .s3 := by
  decide +kernel

theorem witness_CospasReportsUnsupported : (held .c2 f1).regs.result = .syncOk ∧ (held .c2 f1).regs.dialect = .c2 := by
  decide +kernel

theorem witness_TimecodeAndItsParity : ∀ d ∈ [Dialect.s2, .s3],
    (held d f1).regs.result = .syncOk ∧ (held d f1).regs.dialect ≠ .c2 := by decide +kernel

/-- Under each dialect a SHORT and a LONG message with a payload. -/
theorem witness_PayloadIsPrefixAndRange : ∀ d ∈ [Dialect.s2, .s3, .c2],
    (held d (f2 0xD3C778)).regs.dialect = d ∧ ShortValid (held d (f2 0xD3C778)).regs .k0 ∧
    LongValid (held d (f2 0xD3C778)).regs .k1 := by
  unfold ShortValid LongValid IsShort IsLong
  decide +kernel

theorem witness_DopplerReadsWordSixOrSeven : ∀ d ∈ [Dialect.s2, .s3, .c2],
    ShortValid (held d (f2 0xD3C778)).regs .k0 ∧ LongValid (held d (f2 0xD3C778)).regs .k1 := by
  unfold ShortValid LongValid IsShort IsLong
  decide +kernel

theorem witness_PayloadOfALane : ShortValid (held .s3 f1).regs .k0 ∧ LongValid (held .s3 f1).regs .k1 ∧
    ¬ ShortValid (held .s3 f1).regs .k2 ∧ ¬ LongValid (held .s3 f1).regs .k2 := by
  unfold ShortValid LongValid IsShort IsLong
  decide +kernel

theorem witness_HeaderCountryAndCheckField :
    (held .s3 f1).regs.payload .k0 = some (.len88, 0x4CD9C666FF56789D55556D00000000#120) ∧
    (held .s3 f1).regs.payload .k1 = some (.len120, 0xD3C77806E57F2ACAAF37A65A08B4B9#120) := by decide +kernel

theorem witness_LongPayloadHasCheckFieldAndPosition :
    (held .s3 f1).regs.payload .k1 = some (.len120, 0xD3C77806E57F2ACAAF37A65A08B4B9#120) := by decide +kernel

/-- The payload of `f2` under SARSAT-SARP-3 with a given word2. -/
def f2Payload (w2 : Word24) : PayloadLen × PayloadBits := (.len120, w2 ++ 0x86E57F2ACAAF37A65A08B4B9#96)

/-- Word2 of message 1 for the protocols 0 to 3. -/
theorem witness_IdentifiedProtocols :
    ∀ q ∈ [((0xD3C378 : Word24), 0), (0xD3C778, 1), (0xD3CB78, 2), (0xD3CF78, 3)],
      (held .s3 (f2 q.1)).regs.payload .k1 = some (f2Payload q.1) ∧
      beaconNat (held .s3 (f2 q.1)).regs .k1 1 1 = 1 ∧ beaconNat (held .s3 (f2 q.1)).regs .k1 11 3 = q.2 := by
  decide +kernel

/-- Word2 of message 1 for the protocols 4, 5 and 7, and for STANDARD_NATIONAL. -/
theorem witness_ProtocolsWithoutIdentification :
    (∀ q ∈ [((0xD3D378 : Word24), 4), (0xD3D778, 5), (0xD3DF78, 7)],
      (held .s3 (f2 q.1)).regs.payload .k1 = some (f2Payload q.1) ∧
      beaconNat (held .s3 (f2 q.1)).regs .k1 1 1 = 1 ∧ beaconNat (held .s3 (f2 q.1)).regs .k1 11 3 = q.2) ∧
    (held .s3 (f2 0x93C778)).regs.payload .k1 = some (f2Payload 0x93C778) ∧
    beaconNat (held .s3 (f2 0x93C778)).regs .k1 1 1 = 0 := by decide +kernel

theorem witness_RadioCallSignOfProtocolSix :
    (held .s3 f1).regs.payload .k0 = some (.len88, 0x4CD9C666FF56789D55556D00000000#120) ∧
    beaconNat (held .s3 f1).regs .k0 1 1 = 1 ∧ beaconNat (held .s3 f1).regs .k0 11 3 = 6 := by decide +kernel

theorem witness_OptionalFieldsFollowTheDialect : ∀ d ∈ [Dialect.s2, .s3, .c2],
    (laneOf .k0 (step (held d f1))).map (·.dialect) = some d.code := by decide +kernel

/-- A lane with a beacon record of each type after a step. -/
theorem witness_BeaconRecordMatchesItsMessage :
    (bcnOf .k0 (step (held .s3 f1))).map (·.long) = some false ∧ (bcnOf .k1 (step (held .s3 f1))).map (·.long) = some true := by
  decide +kernel

/-- Two frames that agree on message 0 and differ in message 1. -/
theorem witness_LanesReadOnlyTheirOwnMessage :
    (regsOf (step (held .s3 (f2 0)))).map (fun r => (r.result, r.dialect, r.tstamp, (List.range 24).map r.frame.get)) =
      (regsOf (step (held .s3 (f2 1)))).map (fun r => (r.result, r.dialect, r.tstamp, (List.range 24).map r.frame.get)) ∧
    (regsOf (step (held .s3 (f2 0)))).map (·.frame) ≠ (regsOf (step (held .s3 (f2 1)))).map (·.frame) := by
  decide +kernel

/-- A beacon record's type, protocol number and identification kind at a step's ports. -/
def bcnKind (k : Lane) (a : Answer) : Bool × Port 3 × BitVec 3 :=
  let B := (lanePorts (laneOf k a)).bcn
  (B.user, B.protocolNum, B.idKind)

/-- The result and the dialect after a step. -/
def validity (a : Answer) : Option (Result × Dialect) := (regsOf a).map fun r => (r.result, r.dialect)

/-- Frames valid and not, under each dialect. -/
theorem witness_AbsentFieldsReadZero :
    validity (step (held .c2 f1)) = some (.syncOk, .c2) ∧ validity (step (held .s2 f1)) = some (.syncOk, .s2) ∧
    validity (step (held .s3 f1)) = some (.syncOk, .s3) ∧ validity (step State.reset) = some (.none, .s2) := by
  decide +kernel

/-- A message without payload (HOUSEKEEPING; its absent record's country is not known) and one with a short payload. -/
theorem witness_AbsentFieldsReadZero_payload :
    (laneOf .k2 (step (held .s3 f1))).map (fun L => (L.format, L.fmtValid)) = some (2#2, false) ∧
    (lanePorts (laneOf .k2 (step (held .s3 f1)))).bcn.countryKnown = false ∧
    (laneOf .k0 (step (held .s3 f1))).map (fun L => (L.format, L.fmtValid)) = some (0#2, true) := by
  decide +kernel

/-- Beacon records of type STANDARD_NATIONAL, of protocol 6 and of protocol 1. -/
theorem witness_AbsentFieldsReadZero_beacon :
    bcnKind .k0 (step (held .c2 f1)) = (false, .absent, 0#3) ∧
    bcnKind .k0 (step (held .s3 f1)) = (true, portOf (some 6#3), 0#3) ∧
    bcnKind .k1 (step (held .s3 f1)) = (true, portOf (some 1#3), 2#3) := by
  decide +kernel

end Sys2Proof.Tests
end

section
/-! SUPPORT. What a settling cycle leaves at the ports (10_state R50): the operations a lane's registers select, run in
order on its opened record, build the record of the output function. Each stage of 43_message_fields and of
44_beacon_payload has one lemma that says which record it takes to which. -/
namespace Sys2Proof.Machine

/-! ## Runs of one lane's operations -/

/-- Running `is` takes lane k's record from `L` to `L'` and leaves all else of `s`. -/
def LaneRun (s : State) (k : Lane) (is : List Instr) (L L' : LaneOut) : Prop :=
  runOps is (s.setLane k L) = .next (s.setLane k L')

theorem State.driveBcn_selected {s : State} {k : Lane} {p : PayloadLen × PayloadBits}
    {sel : PayloadLen → PayloadBits → Bool} {f : PayloadBits → BcnOut → BcnOut} (hp : s.regs.payload k = some p)
    (hs : sel p.1 p.2 = true) :
    s.driveBcn k sel f = s.setLane k
      { s.laneRec k with bcn := some (f p.2 ((s.laneRec k).bcn.getD (BcnOut.opened s.regs p))) } := by
  simp [State.driveBcn, hp, hs]

section Runs
variable {s : State} {k : Lane} {i : Instr} {is js : List Instr} {L L' L'' : LaneOut}

theorem LaneRun.nil : LaneRun s k [] L L := rfl

/-- Runs compose: the second finds the record the first left. -/
theorem LaneRun.append (h : LaneRun s k is L L') (h' : LaneRun s k js L' L'') : LaneRun s k (is ++ js) L L'' := by
  rw [LaneRun, runOps_append, h, andThen_next, h']

/-- A selected message operation of a valid frame, then the rest. -/
theorem LaneRun.drive {sel : Bool} {f : LaneOut → LaneOut}
    (hi : exec i (s.setLane k L) = .next ((s.setLane k L).drive k sel f)) (hv : s.regs.frameValid = true)
    (hs : sel = true) (h : LaneRun s k is (f L) L') : LaneRun s k (i :: is) L L' := by
  have hd : (s.setLane k L).drive k sel f = s.setLane k (f L) := by
    rw [State.drive_selected (s := s.setLane k L) hv hs, State.laneRec_setLane_same, State.setLane_setLane]
  rw [LaneRun, runOps_cons, hi, hd, andThen_next, h]

/-- A selected beacon operation on the lane's beacon record, then the rest. -/
theorem LaneRun.driveBcn {p : PayloadLen × PayloadBits} {sel : PayloadLen → PayloadBits → Bool}
    {f : PayloadBits → BcnOut → BcnOut}
    (hi : exec i (s.setLane k L) = .next ((s.setLane k L).driveBcn k sel f)) (hp : s.regs.payload k = some p)
    (hs : sel p.1 p.2 = true)
    (h : LaneRun s k is { L with bcn := some (f p.2 (L.bcn.getD (BcnOut.opened s.regs p))) } L') :
    LaneRun s k (i :: is) L L' := by
  rw [LaneRun, runOps_cons, hi, State.driveBcn_selected (s := s.setLane k L) hp hs, State.laneRec_setLane_same,
    State.setLane_setLane, andThen_next]
  exact h

end Runs

/-! ## The record of a lane, stage by stage -/

/-- After the word split and the classification (43_message_fields R181 to R185). -/
def LaneOut.classified (L : LaneOut) (M : MsgBits) : FormatClass → LaneOut
  | .housekeeping =>
    { L.withoutPayload with
      words := wordsOf M, format := FormatClass.code .housekeeping, fmtChecked := false, fmtValid := false }
  | .short => { L with words := wordsOf M, format := FormatClass.code .short }
  | .long => { L with words := wordsOf M, format := FormatClass.code .long }

/-- After the format check, which HOUSEKEEPING skips (43_message_fields R186). -/
def LaneOut.afterCheck (L : LaneOut) (valid : Bool) : FormatClass → LaneOut
  | .housekeeping => L
  | .short => L.checked valid
  | .long => L.checked valid

/-- After the word0 operations of a dialect (43_message_fields R193 to R201). -/
def LaneOut.withWord0 (L : LaneOut) (w0 : Word24) : Dialect → LaneOut
  | .s2 =>
    { L with
      level := some (levelOf w0), rt := some (bitAt w0 17), latest := some (bitAt w0 16),
      dru := some (bits w0 15 2), pseudo := some (bitAt w0 12) }
  | .s3 =>
    { L with
      level := some (levelOf w0), rt := some (bitAt w0 17), latest := some (bitAt w0 16),
      csType := some (bitAt w0 15), serial := some (serialOf w0) }
  | .c2 =>
    { L with
      w0Supported := false, unsupported := true, level := none, rt := none, latest := none, dru := none,
      pseudo := none, csType := none, serial := none }

/-- After the timecode operation of a dialect (43_message_fields R202, R204). -/
def LaneOut.withTimecode (L : LaneOut) (w1 : Word24) : Dialect → LaneOut
  | .s2 => { L with tcSupported := true, timecode := some (timecodeOf w1) }
  | .s3 => { L with tcSupported := true, timecode := some (timecodeOf w1) }
  | .c2 => { L with tcSupported := false, unsupported := true, timecode := none }

/-- With payload and Doppler outputs, when there is a payload (43_message_fields R206, R213). -/
def LaneOut.withPayload (L : LaneOut) (M : MsgBits) : Option (PayloadLen × PayloadBits) → LaneOut
  | none => L
  | some p =>
    { L with payload := some { len := p.1.code, bits := p.2 }, doppler := some (dopplerOf (dopplerWord M)) }

section Message
variable {s : State} {k : Lane} (hv : s.regs.frameValid = true) (L : LaneOut)
include hv

theorem classify_run :
    LaneRun s k [.msgWords k, fmtOp k (s.regs.classOf k)] L (L.classified (s.regs.msg k) (s.regs.classOf k)) := by
  refine .drive rfl hv rfl ?_
  cases hc : s.regs.classOf k <;> exact .drive rfl hv (by simp [hc]) .nil

/-- The check that dialect and class select judges the dialect's check bit (43_message_fields R187 to R192). -/
theorem check_run :
    LaneRun s k (chkOps k s.regs.dialect (s.regs.classOf k)) L
      (L.afterCheck (s.regs.msgValid k) (s.regs.classOf k)) := by
  have hm : s.regs.msgValid k = fmtValidOf s.regs.dialect (s.regs.msg k) := rfl
  have hcl : classify (s.regs.msg k) = s.regs.classOf k := rfl
  cases hc : s.regs.classOf k with
  | housekeeping => cases s.regs.dialect <;> exact .nil
  | short =>
    have hm' : s.regs.msgValid k = (checkBit s.regs.dialect (s.regs.msg k) == false) := by
      rw [hm, fmtValidOf, hcl, hc]
    rw [hm']
    cases hd : s.regs.dialect <;> exact .drive rfl hv (by simp [Regs.isMsg, hc, hd]) .nil
  | long =>
    have hm' : s.regs.msgValid k = (checkBit s.regs.dialect (s.regs.msg k) == true) := by
      rw [hm, fmtValidOf, hcl, hc]
    rw [hm']
    cases hd : s.regs.dialect <;> exact .drive rfl hv (by simp [Regs.isMsg, hc, hd]) .nil

theorem word0_run :
    LaneRun s k (w0Ops k s.regs.dialect) L (L.withWord0 (s.regs.word k 0) s.regs.dialect) := by
  cases hd : s.regs.dialect with
  | s2 =>
    have hs : s.regs.dialect.isSarsat = true := by rw [hd]; rfl
    have h2 : (s.regs.dialect == .s2) = true := by rw [hd]; rfl
    exact .drive rfl hv hs <| .drive rfl hv hs <| .drive rfl hv hs <| .drive rfl hv h2 <| .drive rfl hv h2 .nil
  | s3 =>
    have hs : s.regs.dialect.isSarsat = true := by rw [hd]; rfl
    have h3 : (s.regs.dialect == .s3) = true := by rw [hd]; rfl
    exact .drive rfl hv hs <| .drive rfl hv hs <| .drive rfl hv hs <| .drive rfl hv h3 <| .drive rfl hv h3 .nil
  | c2 => exact .drive rfl hv (by simp [hd]) .nil

theorem timecode_run :
    LaneRun s k [tcOp k s.regs.dialect] L (L.withTimecode (s.regs.word k 1) s.regs.dialect) := by
  cases hd : s.regs.dialect <;> exact .drive rfl hv (by simp [hd, Dialect.isSarsat]) .nil

theorem payload_run :
    LaneRun s k (if s.regs.msgValid k then payOps k s.regs.dialect (s.regs.classOf k) else []) L
      (L.withPayload (s.regs.msg k) (payloadOf s.regs.dialect (s.regs.msg k))) := by
  have hm : s.regs.msgValid k = fmtValidOf s.regs.dialect (s.regs.msg k) := rfl
  have hcl : classify (s.regs.msg k) = s.regs.classOf k := rfl
  rw [payloadOf, ← hm, hcl]
  cases h : s.regs.msgValid k with
  | false => exact .nil
  | true =>
    cases hc : s.regs.classOf k with
    | housekeeping => cases s.regs.dialect <;> exact .nil
    | short =>
      have hw : s.regs.word k 6 = dopplerWord (s.regs.msg k) := by simp [dopplerWord, hcl, hc, Regs.word]
      simp only [LaneOut.withPayload, ← hw, if_true]
      cases hd : s.regs.dialect <;>
        exact .drive rfl hv (by simp [Regs.isMsg, h, hc, hd]) <| .drive rfl hv (by simp [h, hc]) .nil
    | long =>
      have hw : s.regs.word k 7 = dopplerWord (s.regs.msg k) := by simp [dopplerWord, hcl, hc, Regs.word]
      simp only [LaneOut.withPayload, ← hw, if_true]
      cases hd : s.regs.dialect <;>
        exact .drive rfl hv (by simp [Regs.isMsg, h, hc, hd]) <| .drive rfl hv (by simp [h, hc]) .nil

end Message

/-- All message operations of a lane on its opened record (43_message_fields R181 to R218). -/
def messageRec (r : Regs) (k : Lane) : LaneOut :=
  ((((LaneOut.opened r k).classified (r.msg k) (r.classOf k)).afterCheck (r.msgValid k) (r.classOf k)).withWord0
    (r.word k 0) r.dialect).withTimecode (r.word k 1) r.dialect |>.withPayload (r.msg k) (payloadOf r.dialect (r.msg k))

theorem decodeMsg_run {s : State} {k : Lane} (hv : s.regs.frameValid = true) :
    LaneRun s k (decodeMsg k s.regs.dialect (s.regs.msg k)) (LaneOut.opened s.regs k) (messageRec s.regs k) :=
  ((((classify_run hv _).append (check_run hv _)).append (word0_run hv _)).append (timecode_run hv _)).append
    (payload_run hv _)

/-! ## The beacon record, stage by stage -/

/-- After header, country and first check field (44_beacon_payload R231 to R233). -/
def BcnOut.withHeader (B : BcnOut) (P : PayloadBits) : BcnOut :=
  { B with
    formatFlag := bitAt P 0, protocolFlag := protocolFlagOf P, countryCode := countryCodeOf P,
    countryKnown := (countryRom (countryCodeOf P)).isSome, countryEntry := countryRom (countryCodeOf P),
    bch1 := bits P 61 21 }

/-- After the second check field, of 120 bits only (44_beacon_payload R234). -/
def BcnOut.withBch2 (B : BcnOut) (P : PayloadBits) : PayloadLen → BcnOut
  | .len88 => B
  | .len120 => { B with bch2 := some (bits P 107 12) }

/-- After the protocol operation (44_beacon_payload R235 to R245). -/
def BcnOut.withProtocol (B : BcnOut) (P : PayloadBits) : BcnOut :=
  if protocolFlagOf P then B.withUser P (userIdent P).1 (userIdent P).2.1 (userIdent P).2.2
  else { B with user := false, protocolNum := none, idKind := 0, idValue := none, callsign := none }

/-- After the position operation, of 120 bits only (44_beacon_payload R247). -/
def BcnOut.withPos (B : BcnOut) (P : PayloadBits) : PayloadLen → BcnOut
  | .len88 => B
  | .len120 => { B with pos := some (positionOf P) }

/-- The four stages build the record of the output function (10_state R54). -/
theorem opened_interpreted (r : Regs) (len : PayloadLen) (P : PayloadBits) :
    ((((BcnOut.opened r (len, P)).withHeader P).withBch2 P len).withProtocol P).withPos P len =
      beaconOutputs r.tstamp len P := by
  cases len <;> cases hf : protocolFlagOf P <;>
    simp [BcnOut.opened, BcnOut.withHeader, BcnOut.withBch2, BcnOut.withProtocol, BcnOut.withUser, BcnOut.withPos,
      beaconOutputs, hf]

section Beacon
variable {s : State} {k : Lane} {p : PayloadLen × PayloadBits} (hp : s.regs.payload k = some p) (L : LaneOut)
include hp

theorem beaconHeader_run :
    LaneRun s k [.bcnHdr k, .bcnCountry k, .bcnBch1 k] L
      { L with bcn := some ((L.bcn.getD (BcnOut.opened s.regs p)).withHeader p.2) } :=
  .driveBcn rfl hp rfl <| .driveBcn rfl hp rfl <| .driveBcn rfl hp rfl .nil

theorem beaconBch2_run (B : BcnOut) :
    LaneRun s k (if p.1 = .len120 then [.bcnBch2 k] else []) { L with bcn := some B }
      { L with bcn := some (B.withBch2 p.2 p.1) } := by
  obtain ⟨len, P⟩ := p
  cases len with
  | len88 => exact .nil
  | len120 => exact .driveBcn rfl hp rfl .nil

theorem beaconProtocol_run (B : BcnOut) :
    LaneRun s k [protoOp k p.2] { L with bcn := some B } { L with bcn := some (B.withProtocol p.2) } := by
  have key : ∀ n : BitVec 3, n = 0 ∨ n = 1 ∨ n = 2 ∨ n = 3 ∨ n = 4 ∨ n = 5 ∨ n = 6 ∨ n = 7 := by decide
  cases hf : protocolFlagOf p.2 with
  | false =>
    simp only [protoOp, BcnOut.withProtocol, hf]
    exact .driveBcn rfl hp (by simp [hf]) .nil
  | true =>
    rcases key (protocolNumOf p.2) with hn | hn | hn | hn | hn | hn | hn | hn <;>
      (simp only [protoOp, BcnOut.withProtocol, userIdent, hf, hn]
       exact .driveBcn rfl hp (by simp [userPayload, hf, hn]) .nil)

theorem beaconPos_run (B : BcnOut) :
    LaneRun s k (if p.1 = .len120 then [.bcnPos k] else []) { L with bcn := some B }
      { L with bcn := some (B.withPos p.2 p.1) } := by
  obtain ⟨len, P⟩ := p
  cases len with
  | len88 => exact .nil
  | len120 => exact .driveBcn rfl hp rfl .nil

/-- All beacon operations of a lane, on a record that has no beacon record yet. -/
theorem decodePayload_run (hL : L.bcn = none) :
    LaneRun s k (decodePayload k p.1 p.2) L { L with bcn := some (beaconOutputs s.regs.tstamp p.1 p.2) } := by
  have hB : BcnOut.opened s.regs (p.1, p.2) = L.bcn.getD (BcnOut.opened s.regs p) := by rw [hL, Option.getD_none]
  rw [← opened_interpreted s.regs p.1 p.2, hB]
  exact (((beaconHeader_run hp L).append (beaconBch2_run hp L _)).append (beaconProtocol_run hp L _)).append
    (beaconPos_run hp L _)

end Beacon

/-! ## The whole lane, the whole record, the whole step -/

/-- A message has a payload exactly when it is format-valid (43_message_fields R206). -/
theorem payloadOf_isSome (d : Dialect) (M : MsgBits) : (payloadOf d M).isSome = fmtValidOf d M := by
  cases hc : classify M <;> cases hb : checkBit d M <;> simp [payloadOf, fmtValidOf, hc, hb]

/-- On the opened record the check stage leaves the flags of the output function. -/
theorem opened_checked (r : Regs) (k : Lane) :
    ((LaneOut.opened r k).classified (r.msg k) (r.classOf k)).afterCheck (r.msgValid k) (r.classOf k) =
      { LaneOut.opened r k with
        words := wordsOf (r.msg k), format := (r.classOf k).code, fmtChecked := fmtCheckedOf (r.msg k)
        fmtValid := r.msgValid k } := by
  have hm : r.msgValid k = fmtValidOf r.dialect (r.msg k) := rfl
  have hcl : classify (r.msg k) = r.classOf k := rfl
  have hf : fmtCheckedOf (r.msg k) = (r.classOf k != .housekeeping) := rfl
  cases hc : r.classOf k with
  | housekeeping =>
    have hv : r.msgValid k = false := by rw [hm, fmtValidOf, hcl, hc]
    rw [hf, hv, hc]
    rfl
  | short => rw [hf, hc]; cases r.msgValid k <;> rfl
  | long => rw [hf, hc]; cases r.msgValid k <;> rfl

/-- The message operations build the record of the output function but for the beacon record (10_state R53). -/
theorem messageRec_eq (r : Regs) (k : Lane) :
    messageRec r k = { laneOutputs r.tstamp r.dialect (r.msg k) with bcn := none } := by
  have hs := payloadOf_isSome r.dialect (r.msg k)
  rw [messageRec, opened_checked]
  cases hp : payloadOf r.dialect (r.msg k) <;> cases hd : r.dialect <;> rw [hp, hd] at hs <;>
    simp [LaneOut.withPayload, LaneOut.withTimecode, LaneOut.withWord0, LaneOut.opened, laneOutputs, Dialect.isSarsat,
      Regs.classOf, Regs.msgValid, Regs.word, ← hs, hd, hd ▸ hp]

/-- Lane k's operations take its opened record to the one of the output function. -/
theorem laneOps_run {s : State} {k : Lane} (hv : s.regs.frameValid = true) :
    LaneRun s k (s.regs.laneOps k) (LaneOut.opened s.regs k)
      (laneOutputs s.regs.tstamp s.regs.dialect (s.regs.msg k)) := by
  have hp : s.regs.payload k = payloadOf s.regs.dialect (s.regs.msg k) := by rw [Regs.payload, if_pos hv]
  have hmsg := decodeMsg_run (k := k) hv
  rw [messageRec_eq] at hmsg
  rw [Regs.laneOps, if_pos hv]
  refine hmsg.append ?_
  cases h : s.regs.payload k with
  | none =>
    have hL : (laneOutputs s.regs.tstamp s.regs.dialect (s.regs.msg k)).bcn = none := by
      simp [laneOutputs, ← hp, h]
    rw [← hL]
    exact .nil
  | some p =>
    have hL : (laneOutputs s.regs.tstamp s.regs.dialect (s.regs.msg k)).bcn =
        some (beaconOutputs s.regs.tstamp p.1 p.2) := by
      simp [laneOutputs, ← hp, h]
    have hb := decodePayload_run h { laneOutputs s.regs.tstamp s.regs.dialect (s.regs.msg k) with bcn := none } rfl
    rw [← hL] at hb
    exact hb

/-- Lane k's operations take its record from opened or absent to the lane record of the output function. -/
theorem runOps_laneOps {s : State} {r : Regs} {k : Lane} (hr : s.regs = r) (h : s.out.lane k = r.openedLane k) :
    runOps (r.laneOps k) s = .next { s with out := s.out.setLane k (r.laneRecord k) } := by
  subst hr
  cases hv : s.regs.frameValid with
  | false =>
    have hr : s.regs.laneRecord k = s.out.lane k := by simp [h, Regs.laneRecord, Regs.openedLane, hv]
    rw [hr, Output.setLane_self, Regs.laneOps, hv]
    rfl
  | true =>
    have ho : s.setLane k (LaneOut.opened s.regs k) = s := by
      rw [State.setLane, show some (LaneOut.opened s.regs k) = s.out.lane k by simp [h, Regs.openedLane, hv],
        Output.setLane_self]
    have hrun := laneOps_run (k := k) hv
    rw [LaneRun, ho] at hrun
    rw [hrun, Regs.laneRecord, if_pos hv]
    rfl

/-- Settling drives the ports with Decode(FRAME, STATUS, CFG, TSTAMP) and changes nothing else (10_state R50). -/
theorem settle_eq (s : State) : settle s = .next { s with out := decodeOutputs s.regs } := by
  rw [settle, Regs.ops, runOps_append, runOps_append, runOps_laneOps, andThen_next, runOps_laneOps, andThen_next,
    runOps_laneOps] <;> rfl

/-- No instruction faults or is refused (00_scope R20, 60_exceptions R270). -/
theorem exec_next (i : Instr) (s : State) : ∃ t, exec i s = .next t := by
  cases i <;> exact ⟨_, rfl⟩

/-- Whatever stands on the pins, the command has a next state (40_host_commands R137 to R139). -/
theorem command_next (s : State) : ∃ t, command s = .next t := by
  unfold command
  split
  · exact ⟨_, rfl⟩
  · split
    · split
      · exact exec_next _ s
      · exact ⟨_, rfl⟩
    · exact ⟨_, rfl⟩

/-- A step is the command on the registers, then the ports driven from them, then the host's next cycle. -/
theorem step_eq_of_command {s u : State} (h : command s = .next u) :
    step s = .next { u with out := decodeOutputs u.regs }.advance := by
  rw [step, cycle, h, andThen_next, settle_eq, andThen_next]

/-- Every step answers a next state whose ports show the decode of its registers (10_state R50). -/
theorem step_settled (s : State) : Goes (step s) Settled := by
  obtain ⟨u, hu⟩ := command_next s
  refine ⟨_, step_eq_of_command hu, ?_⟩
  rw [Settled, State.advance_regs, State.advance_out]

theorem Settled.lane {t : State} (h : Settled t) (k : Lane) : t.out.lane k = t.regs.laneRecord k := by
  rw [show t.out = decodeOutputs t.regs from h]
  cases k <;> rfl

end Sys2Proof.Machine
end

section
/-! SUPPORT. The format class, the check bit and the payload that the operations compute from a message are those the
frame's bytes spell (43_message_fields R182 to R186, R206). -/
namespace Sys2Proof.Machine

/-- Bit i of word j is message bit 24j + i (20_memory R63). -/
theorem Regs.wordOf_bitAt (r : Regs) (k : Lane) {j i : Nat} (hj : j < 8) (hi : i < 24) :
    bitAt (wordOf (r.msg k) j) i = frameBit r (192 * laneIndex k + (24 * j + i)) := by
  rw [bitAt, wordOf, bits_getMsbD _ hi (by omega), Regs.msg_getMsbD r k (by omega)]

/-- The check bit of the held dialect (30_encoding R110). -/
theorem Regs.checkBit_msg (r : Regs) (k : Lane) : checkBit r.dialect (r.msg k) = chkBit r k := by
  cases hd : r.dialect <;> simp only [checkBit, checkBitS2, checkBitS3, checkBitC2, chkBit, checkAddr, hd] <;>
    exact r.wordOf_bitAt k (by omega) (by omega)

/-- A word equals a constant exactly when its bytes spell it. -/
theorem Regs.wordOf_eq_iff (r : Regs) (k : Lane) {j : Nat} (hj : j < 8) (w : Word24) :
    wordOf (r.msg k) j = w ↔ wordNat r k j = w.toNat := by
  rw [← Regs.word_toNat r k hj, BitVec.toNat_inj, Regs.word]

theorem classify_eq_short {M : MsgBits} :
    classify M = .short ↔ wordOf M 2 ≠ Config.HK_WORD2 ∧ wordOf M 7 = Config.SHORT_WORD7 := by
  unfold classify
  split_ifs with h2 h7
  · exact iff_of_false nofun fun h => h.1 h2
  · exact iff_of_true rfl ⟨h2, h7⟩
  · exact iff_of_false nofun fun h => h7 h.2

theorem classify_eq_long {M : MsgBits} :
    classify M = .long ↔ wordOf M 2 ≠ Config.HK_WORD2 ∧ wordOf M 7 ≠ Config.SHORT_WORD7 := by
  unfold classify
  split_ifs with h2 h7
  · exact iff_of_false nofun fun h => h.1 h2
  · exact iff_of_false nofun fun h => h.2 h7
  · exact iff_of_true rfl ⟨h2, h7⟩

/-- SHORT by the computed class is SHORT by the bytes (43_message_fields R184). -/
theorem Regs.classify_msg_short (r : Regs) (k : Lane) : classify (r.msg k) = .short ↔ IsShort r k := by
  rw [classify_eq_short, ne_eq, r.wordOf_eq_iff k (by omega), r.wordOf_eq_iff k (by omega)]
  rfl

/-- LONG by the computed class is LONG by the bytes (43_message_fields R185). -/
theorem Regs.classify_msg_long (r : Regs) (k : Lane) : classify (r.msg k) = .long ↔ IsLong r k := by
  rw [classify_eq_long, ne_eq, ne_eq, r.wordOf_eq_iff k (by omega), r.wordOf_eq_iff k (by omega)]
  rfl

theorem Regs.frameValid_iff (r : Regs) : r.frameValid = true ↔ r.result = .syncOk := by simp [Regs.frameValid]

/-- A payload of 88 bits comes from a valid SHORT message, one of 120 bits from a valid LONG one
(44_beacon_payload R230). -/
theorem Regs.payload_valid {r : Regs} {k : Lane} {p : PayloadLen × PayloadBits} (h : r.payload k = some p) :
    (p.1 = .len88 ∧ ShortValid r k) ∨ (p.1 = .len120 ∧ LongValid r k) := by
  rw [Regs.payload] at h
  split at h
  next hv =>
    have hres := r.frameValid_iff.mp hv
    have hs := r.classify_msg_short k
    have hl := r.classify_msg_long k
    rw [payloadOf, fmtValidOf, Regs.checkBit_msg] at h
    cases hc : classify (r.msg k) with
    | housekeeping => simp [hc] at h
    | short =>
      simp only [hc, beq_iff_eq, Option.ite_none_right_eq_some, Option.some.injEq] at h
      obtain ⟨hb, rfl⟩ := h
      exact .inl ⟨rfl, hres, hs.mp hc, hb⟩
    | long =>
      simp only [hc, beq_iff_eq, Option.ite_none_right_eq_some, Option.some.injEq] at h
      obtain ⟨hb, rfl⟩ := h
      exact .inr ⟨rfl, hres, hl.mp hc, hb⟩
  next => cases h

theorem Regs.payload_eq_none {r : Regs} {k : Lane} (hs : ¬ ShortValid r k) (hl : ¬ LongValid r k) :
    r.payload k = none := by
  cases h : r.payload k with
  | none => rfl
  | some p =>
    rcases Regs.payload_valid h with ⟨-, hv⟩ | ⟨-, hv⟩
    · exact absurd hv hs
    · exact absurd hv hl

end Sys2Proof.Machine
end

section
/-! What the ports show of absent fields and absent records (10_state R53 to R55, 00_scope R16). -/
namespace Sys2Proof.Machine

/-! ## Ports that read zero -/

@[simp] theorem readsZero_absent {w : Nat} : ReadsZero (Port.absent : Port w) := ⟨rfl, rfl⟩

@[simp] theorem readsZero_portOf {w : Nat} {o : Option (BitVec w)} : ReadsZero (portOf o) ↔ o = none := by
  cases o <;> simp [ReadsZero]

@[simp] theorem readsZero_fieldPort {α : Type} {w : Nat} {rec : Option α} {f : α → Option (BitVec w)} :
    ReadsZero (fieldPort rec f) ↔ rec.bind f = none := readsZero_portOf

@[simp] theorem readsZero_flagPort {α : Type} {rec : Option α} {f : α → Option Bool} :
    ReadsZero (flagPort rec f) ↔ rec.bind f = none := readsZero_portOf.trans Option.map_eq_none_iff

theorem lanePorts_none : lanePorts none = absentLanePorts := rfl

theorem bcnPorts_none : bcnPorts none = absentBcnPorts := rfl

/-! ## The optional fields of a lane's record -/

section Lane
variable {r : Regs} {k : Lane}

theorem Regs.laneRecord_of_invalid (h : r.result ≠ .syncOk) : r.laneRecord k = none := by
  rw [Regs.laneRecord, if_neg (mt r.frameValid_iff.mp h)]

/-- A field of the lane record is one of the output function's record, or absent with the frame. -/
theorem Regs.laneRecord_bind {α : Type} {f : LaneOut → Option α}
    (h : f (laneOutputs r.tstamp r.dialect (r.msg k)) = none) : (r.laneRecord k).bind f = none := by
  unfold Regs.laneRecord
  split <;> simp [h]

theorem Regs.laneRecord_payload :
    (r.laneRecord k).bind (·.payload) = (r.payload k).map fun p => { len := p.1.code, bits := p.2 } := by
  unfold Regs.laneRecord Regs.payload
  split <;> rfl

/-- Doppler outputs stand beside a payload and nowhere else (43_message_fields R213). -/
theorem Regs.laneRecord_doppler (h : r.payload k = none) : (r.laneRecord k).bind (·.doppler) = none := by
  unfold Regs.laneRecord
  split
  next hv =>
    rw [Regs.payload, if_pos hv] at h
    simp [laneOutputs, ← payloadOf_isSome, h]
  next => rfl

/-- The fields that COSPAS-SARP-2 does not have (10_state R53; 43_message_fields R200, R204). -/
theorem lanePorts_of_c2 (h : r.dialect = .c2) :
    ReadsZero (lanePorts (r.laneRecord k)).level ∧ ReadsZero (lanePorts (r.laneRecord k)).levelCdbm ∧
      ReadsZero (lanePorts (r.laneRecord k)).rt ∧ ReadsZero (lanePorts (r.laneRecord k)).latest ∧
      ReadsZero (lanePorts (r.laneRecord k)).timecode ∧ ReadsZero (lanePorts (r.laneRecord k)).tcParityBit ∧
      ReadsZero (lanePorts (r.laneRecord k)).tcParityValid := by
  simp [lanePorts, Regs.laneRecord_bind, laneOutputs, h, Dialect.isSarsat]

/-- A lane of a valid frame under COSPAS-SARP-2 is there and says what it does not support (43_message_fields R219). -/
theorem lanePorts_unsupported (h : r.dialect = .c2) (hres : r.result = .syncOk) :
    (lanePorts (r.laneRecord k)).present = true ∧ (lanePorts (r.laneRecord k)).unsupported = true := by
  have hv := r.frameValid_iff.mpr hres
  simp [lanePorts, Regs.laneRecord, hv, laneOutputs, h]

/-- The fields of SARSAT-SARP-2 alone (43_message_fields R196, R197). -/
theorem lanePorts_of_not_s2 (h : r.dialect ≠ .s2) :
    ReadsZero (lanePorts (r.laneRecord k)).dru ∧ ReadsZero (lanePorts (r.laneRecord k)).pseudo := by
  simp [lanePorts, Regs.laneRecord_bind, laneOutputs, h]

/-- The fields of SARSAT-SARP-3 alone (43_message_fields R198, R199). -/
theorem lanePorts_of_not_s3 (h : r.dialect ≠ .s3) :
    ReadsZero (lanePorts (r.laneRecord k)).csType ∧ ReadsZero (lanePorts (r.laneRecord k)).serial ∧
      ReadsZero (lanePorts (r.laneRecord k)).serialDdb := by
  simp [lanePorts, Regs.laneRecord_bind, laneOutputs, h]

end Lane

/-! ## The beacon record -/

/-- The beacon record of a lane's payload (44_beacon_payload R230). -/
def Regs.beaconRecord (r : Regs) (k : Lane) : Option BcnOut :=
  (r.payload k).map fun p => beaconOutputs r.tstamp p.1 p.2

section Beacon
variable {r : Regs} {k : Lane}

theorem Regs.laneRecord_bcn : (r.laneRecord k).bind (·.bcn) = r.beaconRecord k := by
  unfold Regs.laneRecord Regs.beaconRecord Regs.payload
  split <;> rfl

/-- The beacon ports among a lane's ports are those of its payload's record. -/
theorem lanePorts_bcn : (lanePorts (r.laneRecord k)).bcn = bcnPorts (r.beaconRecord k) :=
  congrArg bcnPorts Regs.laneRecord_bcn

/-- Payload, Doppler outputs and beacon record of a message without a payload (43_message_fields R206, R213;
44_beacon_payload R230). -/
theorem lanePorts_without_payload (h : r.payload k = none) :
    ReadsZero (lanePorts (r.laneRecord k)).payloadLen ∧ ReadsZero (lanePorts (r.laneRecord k)).payload ∧
      ReadsZero (lanePorts (r.laneRecord k)).doppler ∧ ReadsZero (lanePorts (r.laneRecord k)).dopParityBit ∧
      ReadsZero (lanePorts (r.laneRecord k)).dopParityValid ∧ ReadsZero (lanePorts (r.laneRecord k)).absFreqMhz ∧
      (lanePorts (r.laneRecord k)).bcn = absentBcnPorts := by
  have hp : (r.laneRecord k).bind (·.payload) = none := by rw [Regs.laneRecord_payload, h, Option.map_none]
  have hd := Regs.laneRecord_doppler h
  have hb : r.beaconRecord k = none := by rw [Regs.beaconRecord, h, Option.map_none]
  rw [lanePorts_bcn, hb]
  simp only [Option.bind_eq_none_iff] at hp hd
  simp only [lanePorts, readsZero_fieldPort, readsZero_flagPort, Option.bind_eq_none_iff, Option.map_eq_none_iff]
  exact ⟨hp, hp, hd, hd, hd, hd, bcnPorts_none⟩

/-- The country entry of an unknown code (44_beacon_payload R232). -/
theorem bcnPorts_countryEntry (h : (bcnPorts (r.beaconRecord k)).countryKnown = false) :
    ReadsZero (bcnPorts (r.beaconRecord k)).countryEntry := by
  revert h
  unfold Regs.beaconRecord
  cases r.payload k <;> simp [bcnPorts, beaconOutputs]

/-- Second check field and position belong to 120 bits (44_beacon_payload R234, R247). -/
theorem bcnPorts_of_not_long (h : ¬ LongValid r k) :
    ReadsZero (bcnPorts (r.beaconRecord k)).bch2 ∧ ReadsZero (bcnPorts (r.beaconRecord k)).posSource ∧
      ReadsZero (bcnPorts (r.beaconRecord k)).posLatFlag ∧ ReadsZero (bcnPorts (r.beaconRecord k)).posLatDeg ∧
      ReadsZero (bcnPorts (r.beaconRecord k)).posLatMin4 ∧ ReadsZero (bcnPorts (r.beaconRecord k)).posLatMin ∧
      ReadsZero (bcnPorts (r.beaconRecord k)).posLonFlag ∧ ReadsZero (bcnPorts (r.beaconRecord k)).posLonDeg ∧
      ReadsZero (bcnPorts (r.beaconRecord k)).posLonMin4 ∧ ReadsZero (bcnPorts (r.beaconRecord k)).posLonMin := by
  unfold Regs.beaconRecord
  cases hp : r.payload k with
  | none => simp [bcnPorts]
  | some p =>
    have hlen : p.1 = .len88 := (Regs.payload_valid hp).elim And.left fun hl => absurd hl.2 h
    simp [bcnPorts, beaconOutputs, hlen]

/-- STANDARD_NATIONAL has no protocol number (44_beacon_payload R236). -/
theorem bcnPorts_protocolNum (h : (bcnPorts (r.beaconRecord k)).user = false) :
    ReadsZero (bcnPorts (r.beaconRecord k)).protocolNum := by
  revert h
  unfold Regs.beaconRecord
  cases r.payload k <;> simp +contextual [bcnPorts, beaconOutputs]

/-- A USER payload without an identification kind has no identification (44_beacon_payload R238 to R245). -/
theorem userIdent_value_of_kind_zero {P : PayloadBits} (h : (userIdent P).1 = 0#3) : (userIdent P).2.1 = none := by
  revert h
  unfold userIdent
  split <;> simp

/-- Only protocol 6 has a call sign (44_beacon_payload R244). -/
theorem userIdent_callsign_of_ne_six {P : PayloadBits} (h : protocolNumOf P ≠ 6#3) : (userIdent P).2.2 = none := by
  unfold userIdent
  split
  case h_5 h6 => exact absurd (BitVec.eq_of_toNat_eq h6) h
  all_goals rfl

theorem bcnPorts_idValue (h : (bcnPorts (r.beaconRecord k)).idKind = 0#3) :
    ReadsZero (bcnPorts (r.beaconRecord k)).idValue := by
  revert h
  unfold Regs.beaconRecord
  cases r.payload k with
  | none => simp [bcnPorts]
  | some p =>
    cases hf : protocolFlagOf p.2 <;>
      simp +contextual [bcnPorts, beaconOutputs, hf, userIdent_value_of_kind_zero]

theorem bcnPorts_callsign
    (h : (bcnPorts (r.beaconRecord k)).user = false ∨ (bcnPorts (r.beaconRecord k)).protocolNum.value ≠ 6#3) :
    ReadsZero (bcnPorts (r.beaconRecord k)).callsign ∧ ReadsZero (bcnPorts (r.beaconRecord k)).callsignMiss := by
  revert h
  unfold Regs.beaconRecord
  cases r.payload k with
  | none => simp [bcnPorts]
  | some p =>
    cases hf : protocolFlagOf p.2 <;>
      simp +contextual [bcnPorts, beaconOutputs, hf, userIdent_callsign_of_ne_six]

end Beacon

/-! ## The statement -/

/-- Settles O60: after a step the ports are the output function's (`step_settled`), and each clause is a lemma about the
record that function gives for the registers. -/
theorem absentFieldsReadZero : Obligations.AbsentFieldsReadZero := by
  unfold Obligations.AbsentFieldsReadZero
  refine ⟨lanePorts_none, bcnPorts_none, fun s => ?_⟩
  obtain ⟨t, ht, hset⟩ := step_settled s
  refine ⟨t, ht, fun k => ?_⟩
  rw [hset.lane k, lanePorts_bcn]
  refine ⟨fun h => ?_, fun h => ?_, lanePorts_of_not_s2, lanePorts_of_not_s3, fun hs hl => ?_, bcnPorts_countryEntry,
    bcnPorts_of_not_long, bcnPorts_protocolNum, bcnPorts_idValue, bcnPorts_callsign⟩
  · rw [Regs.laneRecord_of_invalid h, lanePorts_none]
  · obtain ⟨h1, h2, h3, h4, h5, h6, h7⟩ := lanePorts_of_c2 (k := k) h
    exact ⟨h1, h2, h3, h4, h5, h6, h7, lanePorts_unsupported h⟩
  · rw [← lanePorts_bcn]
    exact lanePorts_without_payload (Regs.payload_eq_none hs hl)

end Sys2Proof.Machine
end

section
/-! SUPPORT. What an instruction, a command and a step do to the registers, as functions of the registers and the pins;
that the message and beacon operations reach one lane's record and nothing else; everything SYM can do. -/
namespace Sys2Proof.Machine

/-! ## Message and beacon operations -/

/-- The next state is `s` with another record of one lane at most. -/
def ChangesALane (s : State) (a : Answer) : Prop := a = .next s ∨ ∃ k L, a = .next (s.setLane k L)

theorem ChangesALane.drive {s : State} {k : Lane} {sel : Bool} {f : LaneOut → LaneOut} :
    ChangesALane s (.next (s.drive k sel f)) := by
  rcases s.drive_cases k sel f with ⟨-, -, h⟩ | ⟨-, h⟩
  · exact .inr ⟨k, _, by rw [h]⟩
  · exact .inl (by rw [h])

theorem ChangesALane.driveBcn {s : State} {k : Lane} {sel : PayloadLen → PayloadBits → Bool}
    {f : PayloadBits → BcnOut → BcnOut} : ChangesALane s (.next (s.driveBcn k sel f)) := by
  rcases s.driveBcn_cases k sel f with ⟨p, -, -, h⟩ | ⟨-, h⟩
  · exact .inr ⟨k, _, by rw [h]⟩
  · exact .inl (by rw [h])

/-- Every message operation is a `drive` of its lane (43_message_fields R224), every beacon operation a `driveBcn`
(44_beacon_payload R230). -/
theorem exec_changesALane {i : Instr} (s : State) (h : i.format = .msg ∨ i.format = .payload) :
    ChangesALane s (exec i s) := by
  rcases h with h | h
  · cases i <;> cases h <;> exact .drive
  · cases i <;> cases h <;> exact .driveBcn

/-- What stays as it was when one lane's record changes (10_state R44). -/
theorem ChangesALane.frame {s : State} {a : Answer} (h : ChangesALane s a) :
    Goes a fun t => t.regs = s.regs ∧ t.pins = s.pins ∧ t.script = s.script ∧
      t.out = { s.out with lane0 := t.out.lane0, lane1 := t.out.lane1, lane2 := t.out.lane2 } := by
  rcases h with h | ⟨k, L, h⟩
  · exact ⟨s, h, rfl, rfl, rfl, rfl⟩
  · exact ⟨_, h, rfl, rfl, rfl, by cases k <;> rfl⟩

/-! ## The registers after an instruction, a command, a step -/

/-- What an instruction does to the registers, `now` being the value on the input port. NOP and the operations of the
MSG and PAYLOAD formats leave them. -/
def regsAfter (now : Timestamp) (r : Regs) : Instr → Regs
  | .sym l b => symRegs now l b r
  | .setdialect dd => setdialectRegs dd r
  | .setinv v => { r with inv := v }
  | .ack c b a => acknowledge c b a r
  | .srst => Regs.reset
  | .pair01 => pair01Regs r
  | .pair10 => pair10Regs r
  | .pair00 => pair00Regs r
  | .pair11 => pair11Regs r
  | .syncMatch => syncMatchRegs r
  | .syncMiss => syncMissRegs r
  | _ => r

theorem exec_syncMatch_regs (s : State) : Goes (exec .syncMatch s) fun t => t.regs = syncMatchRegs s.regs := by
  refine ⟨_, rfl, ?_⟩
  unfold syncMatchRegs
  split <;> rfl

theorem exec_syncMiss_regs (s : State) : Goes (exec .syncMiss s) fun t => t.regs = syncMissRegs s.regs := by
  refine ⟨_, rfl, ?_⟩
  unfold syncMissRegs
  split <;> rfl

theorem exec_regs (i : Instr) (s : State) : Goes (exec i s) fun t => t.regs = regsAfter s.pins.now s.regs i := by
  have lane (hi : i.format = .msg ∨ i.format = .payload) : Goes (exec i s) fun t => t.regs = s.regs := by
    obtain ⟨t, ht, hr, -⟩ := (exec_changesALane s hi).frame
    exact ⟨t, ht, hr⟩
  cases i with
  | nop | sym | setdialect | setinv | ack | srst | pair01 | pair10 | pair00 | pair11 => exact ⟨_, rfl, rfl⟩
  | syncMatch => exact exec_syncMatch_regs s
  | syncMiss => exact exec_syncMiss_regs s
  | bcnHdr | bcnCountry | bcnBch1 | bcnBch2 | bcnPos | protoStdnat | protoUser0 | protoUser1 | protoUser2 | protoUser3
  | protoUser4 | protoUser5 | protoUser6 | protoUser7 => exact lane (.inr rfl)
  | _ => exact lane (.inl rfl)

/-- What the pins of a cycle do to the registers: `rst` first, then no command, then the decoded command or the illegal
byte (40_host_commands R137 to R139). -/
def Pins.regsAfter (p : Pins) (r : Regs) : Regs :=
  if p.rst then Regs.reset
  else if p.cmdValid then
    match decodeCmd p.cmd with
    | .instr i => Machine.regsAfter p.now r i
    | .illegal _ => illegalCommand r
  else r

theorem command_regs (s : State) : Goes (command s) fun u => u.regs = s.pins.regsAfter s.regs := by
  unfold command Pins.regsAfter
  split
  · exact ⟨_, rfl, rfl⟩
  · split
    · cases decodeCmd s.pins.cmd with
      | instr i => exact exec_regs i s
      | illegal why => exact ⟨_, rfl, rfl⟩
    · exact ⟨_, rfl, rfl⟩

/-- A step leaves the registers that the pins of its cycle make, and ports that show their decode. -/
theorem step_regs (s : State) : Goes (step s) fun t => t.regs = s.pins.regsAfter s.regs ∧ Settled t := by
  obtain ⟨u, hu, hr⟩ := command_regs s
  refine ⟨_, step_eq_of_command hu, ?_, ?_⟩
  · rw [State.advance_regs, ← hr]
  · rw [Settled, State.advance_regs, State.advance_out]

/-- A cycle leaves the reset registers, those of an instruction, those of an illegal byte, or the ones it found. -/
theorem Pins.regsAfter_cases {P : Regs → Prop} {r : Regs} (p : Pins) (hreset : P Regs.reset)
    (hinstr : ∀ i, P (Machine.regsAfter p.now r i)) (hillegal : P (illegalCommand r)) (hr : P r) :
    P (p.regsAfter r) := by
  unfold Pins.regsAfter
  split
  · exact hreset
  · split
    · cases decodeCmd p.cmd with
      | instr i => exact hinstr i
      | illegal why => exact hillegal
    · exact hr

/-! ## The line decoder and SYM -/

/-- `r'` differs from `r` at most in what the line decoder works on: WBUF, HOLD, INV_ACT, VIOL_ACT
(10_state R33, R36 to R38). -/
def LineOnly (r r' : Regs) : Prop :=
  ∃ w h a v, r' = { r with wbuf := w, hold := h, invAct := a, violAct := v }

theorem LineOnly.refl (r : Regs) : LineOnly r r := ⟨_, _, _, _, rfl⟩

theorem LineOnly.trans {r r' r'' : Regs} (h : LineOnly r r') (h' : LineOnly r' r'') : LineOnly r r'' := by
  obtain ⟨_, _, _, _, rfl⟩ := h
  obtain ⟨_, _, _, _, rfl⟩ := h'
  exact ⟨_, _, _, _, rfl⟩

theorem legalPair_lineOnly (a : Bool) (r : Regs) : LineOnly r (legalPair a r) := by
  rcases legalPair_cases a r with ⟨-, h⟩ | ⟨-, h⟩ <;> rw [h] <;> exact ⟨_, _, _, _, rfl⟩

theorem violatingPair_lineOnly (a : Bool) (r : Regs) : LineOnly r (violatingPair a r) := by
  rcases violatingPair_cases a r with ⟨-, h⟩ | ⟨-, h⟩ <;> rw [h] <;> exact ⟨_, _, _, _, rfl⟩

theorem pairDecode_lineOnly (b : Bool) (r : Regs) : LineOnly r (pairDecode b r) := by
  unfold pairDecode
  split
  · exact legalPair_lineOnly false r
  · exact legalPair_lineOnly true r
  · exact violatingPair_lineOnly false r
  · exact violatingPair_lineOnly true r

theorem startBlock_lineOnly (r : Regs) : LineOnly r (startBlock r) := by
  unfold startBlock
  split <;> exact ⟨_, _, _, _, rfl⟩

theorem takeSymbol_lineOnly (b : Bool) (r : Regs) : LineOnly r (takeSymbol b r) := by
  unfold takeSymbol
  split
  · exact pairDecode_lineOnly b r
  · exact ⟨_, _, _, _, rfl⟩

/-- Everything SYM can do: drop the symbol, count it, or end the block with its length right or wrong; before the last
three the line decoder has taken the symbol, unless the count was full (40_host_commands R131, R132). -/
theorem symRegs_cases (now : Timestamp) (l b : Bool) (r : Regs) :
    (l = false ∧ r.symcnt = 1200 ∧ symRegs now l b r = r) ∨
    ∃ r', LineOnly r r' ∧
      ((l = false ∧ r.symcnt ≠ 1200 ∧ symRegs now l b r = { r' with symcnt := r.symcnt + 1 }) ∨
        (l = true ∧ r.symcnt = 1199 ∧ symRegs now l b r = endBlockGood now r') ∨
        (l = true ∧ r.symcnt ≠ 1199 ∧ symRegs now l b r = endBlockLength now r')) := by
  have hline : LineOnly r (takeSymbol b (startBlock r)) := (startBlock_lineOnly r).trans (takeSymbol_lineOnly b _)
  by_cases hfull : r.symcnt = 1200
  · cases l with
    | false => exact .inl ⟨rfl, hfull, by simp [symRegs, hfull]⟩
    | true => exact .inr ⟨r, .refl r, .inr (.inr ⟨rfl, by simp [hfull], by simp [symRegs, hfull]⟩)⟩
  · refine .inr ⟨_, hline, ?_⟩
    cases l with
    | false => exact .inl ⟨rfl, hfull, by rw [symRegs, if_neg hfull]; rfl⟩
    | true =>
      by_cases hlast : r.symcnt = 1199
      · exact .inr (.inl ⟨rfl, hlast, by simp [symRegs, hlast]⟩)
      · exact .inr (.inr ⟨rfl, hlast, by rw [symRegs, if_neg hfull]; exact if_neg hlast⟩)

/-! ## Instructions that leave the frame -/

/-- Without `last` SYM writes no frame byte (10_state R31). -/
theorem symRegs_frame (now : Timestamp) (b : Bool) (r : Regs) : (symRegs now false b r).frame = r.frame := by
  rcases symRegs_cases now false b r with ⟨-, -, h⟩ | ⟨_, ⟨_, _, _, _, rfl⟩, ⟨-, -, h⟩ | ⟨hl, -⟩ | ⟨hl, -⟩⟩
  · rw [h]
  · rw [h]
  · cases hl
  · cases hl

theorem setdialectRegs_frame (dd : BitVec 2) (r : Regs) : (setdialectRegs dd r).frame = r.frame := by
  unfold setdialectRegs
  split <;> rfl

theorem LineOnly.frame {r r' : Regs} (h : LineOnly r r') : r'.frame = r.frame := by
  obtain ⟨_, _, _, _, rfl⟩ := h
  rfl

/-- Only SYM with `last`, SRST and the two sync operations write FRAME (10_state R31, assumption 11). -/
theorem regsAfter_frame (now : Timestamp) (r : Regs) {i : Instr} (hsym : ∀ b, i ≠ .sym true b) (hsrst : i ≠ .srst)
    (hmatch : i ≠ .syncMatch) (hmiss : i ≠ .syncMiss) : (regsAfter now r i).frame = r.frame := by
  cases i with
  | sym l b =>
    cases l with
    | false => exact symRegs_frame now b r
    | true => exact absurd rfl (hsym b)
  | setdialect dd => exact setdialectRegs_frame dd r
  | srst => exact absurd rfl hsrst
  | pair01 => exact (legalPair_lineOnly false r).frame
  | pair10 => exact (legalPair_lineOnly true r).frame
  | pair00 => exact (violatingPair_lineOnly false r).frame
  | pair11 => exact (violatingPair_lineOnly true r).frame
  | syncMatch => exact absurd rfl hmatch
  | syncMiss => exact absurd rfl hmiss
  | _ => rfl

/-! ## The statements -/

/-- Settles O15: the operations the registers select build the record of the output function (`settle_eq`). -/
theorem portsAreTheDecodeOfTheRegisters : Obligations.PortsAreTheDecodeOfTheRegisters := by
  unfold Obligations.PortsAreTheDecodeOfTheRegisters
  exact step_settled

/-- Settles O10: what an instruction does to the registers (`exec_regs`) leaves FRAME but in the four excluded forms. -/
theorem otherInstructionsLeaveTheFrame : Obligations.OtherInstructionsLeaveTheFrame := by
  unfold Obligations.OtherInstructionsLeaveTheFrame
  intro i s hsym hsrst hmatch hmiss
  obtain ⟨t, ht, hr⟩ := exec_regs i s
  refine ⟨t, ht, fun a => ?_⟩
  rw [hr, regsAfter_frame _ _ hsym hsrst hmatch hmiss]

/-- Settles O11: such an operation drives its lane's record and nothing else (`exec_changesALane`). -/
theorem laneOperationsChangeNoState : Obligations.LaneOperationsChangeNoState := by
  unfold Obligations.LaneOperationsChangeNoState
  intro i s hi
  obtain ⟨t, ht, hregs, hpins, hscript, hout⟩ := (exec_changesALane s hi).frame
  exact ⟨t, ht, hregs, hpins, hscript, fun a => by rw [hregs], hout⟩

end Sys2Proof.Machine
end

section
/-! The invariant of reachable states (10_state R49): every instruction keeps it, for it holds whatever block outcome a
state records. -/
namespace Sys2Proof.Machine

/-- RESULT and FRAME as a block end records them: a failed block clears the frame, a good one commits its bits and the
pattern's verdict on them (41_manchester R158, R159, R161). -/
inductive RecordedOutcome : Result → Memory → Prop
  | lineViolation : RecordedOutcome .lineViolation []
  | lengthError : RecordedOutcome .lengthError []
  | committed (f : FrameBits) : RecordedOutcome (syncResult f) (Memory.ofBits f)

theorem syncResult_eq_syncOk {f : FrameBits} : syncResult f = .syncOk ↔ syncMatch f = true := by
  cases h : syncMatch f <;> simp [syncResult, h]

theorem syncResult_eq_syncFail {f : FrameBits} : syncResult f = .syncFail ↔ syncMatch f = false := by
  cases h : syncMatch f <;> simp [syncResult, h]

/-- A committed frame is present and has a verdict. -/
theorem syncResult_cases (f : FrameBits) : syncResult f = .syncOk ∨ syncResult f = .syncFail := by
  rw [syncResult_eq_syncOk, syncResult_eq_syncFail]
  exact Bool.eq_false_or_eq_true _

/-- Registers that hold a block outcome meet the invariant, whatever their flags are. -/
theorem Inv.of_outcome {r : Regs} (hcnt : r.symcnt.toNat ≤ 1200) (h : RecordedOutcome r.result r.frame) : Inv r := by
  generalize hres : r.result = res, hm : r.frame = m at h
  cases h with
  | lineViolation | lengthError => constructor <;> simp [hcnt, hres, hm, Memory.wf_nil, Regs.framePresent]
  | committed f =>
    constructor
    · exact hcnt
    · rw [hm, Memory.wf_ofBits]
    · rcases syncResult_cases f with h | h <;> simp [Regs.framePresent, hres, h]
    · rw [hres, hm, Memory.fb_ofBits]
      exact fun _ => syncResult_eq_syncOk
    · rcases syncResult_cases f with h | h <;> simp [hres, h]

theorem inv_endBlockLength (now : Timestamp) (r : Regs) : Inv (endBlockLength now r) :=
  .of_outcome (by simp [endBlockLength]) .lengthError

theorem inv_endBlockGood (now : Timestamp) {r : Regs} (h : r.symcnt = 1199) : Inv (endBlockGood now r) := by
  rcases endBlockGood_cases now r h with ⟨-, h⟩ | ⟨-, h⟩ <;> rw [h]
  · exact .of_outcome (by simp) .lineViolation
  · exact .of_outcome (by simp) (by simpa using .committed r.wbuf)

/-- The invariant speaks of SYMCNT, FRAME, RESULT, NEW and OVR only, and bounds the flags from above. -/
theorem Inv.congr {r r' : Regs} (h : Inv r) (hcnt : r'.symcnt.toNat ≤ 1200) (hframe : r'.frame = r.frame)
    (hresult : r'.result = r.result) (hflags : r'.newFlag = true ∨ r'.ovr = true → r.newFlag = true ∨ r.ovr = true) :
    Inv r' where
  symcnt_le := hcnt
  frame_wf := hframe ▸ h.frame_wf
  frame_blank hp := by
    rw [hframe]
    exact h.frame_blank (by rwa [Regs.framePresent, hresult] at hp)
  sync_ok hp := by
    rw [hframe, hresult]
    exact h.sync_ok (by rwa [Regs.framePresent, hresult] at hp)
  flags_set hf := hresult ▸ h.flags_set (hflags hf)

theorem Inv.lineOnly {r r' : Regs} (h : Inv r) (hline : LineOnly r r') : Inv r' := by
  obtain ⟨_, _, _, _, rfl⟩ := hline
  exact h.congr h.symcnt_le rfl rfl id

/-- A symbol is counted below 1200 only (10_state R35). -/
theorem Inv.symRegs {r : Regs} (h : Inv r) (now : Timestamp) (l b : Bool) : Inv (symRegs now l b r) := by
  rcases symRegs_cases now l b r with ⟨-, -, hs⟩ | ⟨r', hline, ⟨-, hne, hs⟩ | ⟨-, hlast, hs⟩ | ⟨-, -, hs⟩⟩ <;> rw [hs]
  · exact h
  · have hcnt := h.symcnt_le
    exact (h.lineOnly hline).congr (by bv_omega) rfl rfl id
  · obtain ⟨_, _, _, _, rfl⟩ := hline
    exact inv_endBlockGood now hlast
  · exact inv_endBlockLength now r'

theorem Inv.setdialectRegs {r : Regs} (h : Inv r) (dd : BitVec 2) : Inv (setdialectRegs dd r) := by
  unfold Machine.setdialectRegs
  split <;> exact h.congr h.symcnt_le rfl rfl id

theorem ackedFlag_le {mask flag : Bool} (h : ackedFlag mask flag = true) : flag = true := by
  cases mask
  · exact h
  · cases h

/-- ACK can only clear flags (40_host_commands R135). -/
theorem Inv.acknowledge {r : Regs} (h : Inv r) (c b a : Bool) : Inv (acknowledge c b a r) :=
  h.congr h.symcnt_le rfl rfl (Or.imp ackedFlag_le ackedFlag_le)

/-- A sync operation run alone records what its commit would, and leaves SYMCNT and the flags. -/
theorem inv_syncCommitted {r : Regs} (h : Inv r) : Inv (commitFrame (syncResult r.wbuf) r) :=
  .of_outcome (by simpa using h.symcnt_le) (by simpa using .committed r.wbuf)

theorem Inv.syncMatchRegs {r : Regs} (h : Inv r) : Inv (syncMatchRegs r) := by
  unfold Machine.syncMatchRegs
  split
  next hm =>
    have hres := syncResult_eq_syncOk.mpr (Bool.and_eq_true_iff.mp hm).2
    exact hres ▸ inv_syncCommitted h
  next => exact h

theorem Inv.syncMissRegs {r : Regs} (h : Inv r) : Inv (syncMissRegs r) := by
  unfold Machine.syncMissRegs
  split
  next hm =>
    have hres := syncResult_eq_syncFail.mpr (by simpa using (Bool.and_eq_true_iff.mp hm).2)
    exact hres ▸ inv_syncCommitted h
  next => exact h

/-- The reset state records no outcome and holds nothing (10_state R48). -/
theorem inv_reset : Inv Regs.reset where
  symcnt_le := by simp [Regs.reset]
  frame_wf := rfl
  frame_blank _ := rfl
  sync_ok h := by cases h
  flags_set h := by simp [Regs.reset] at h

theorem Inv.regsAfter {r : Regs} (h : Inv r) (now : Timestamp) (i : Instr) : Inv (regsAfter now r i) := by
  cases i with
  | sym l b => exact h.symRegs now l b
  | setdialect dd => exact h.setdialectRegs dd
  | setinv v => exact h.congr h.symcnt_le rfl rfl id
  | ack c b a => exact h.acknowledge c b a
  | srst => exact inv_reset
  | pair01 => exact h.lineOnly (legalPair_lineOnly false r)
  | pair10 => exact h.lineOnly (legalPair_lineOnly true r)
  | pair00 => exact h.lineOnly (violatingPair_lineOnly false r)
  | pair11 => exact h.lineOnly (violatingPair_lineOnly true r)
  | syncMatch => exact h.syncMatchRegs
  | syncMiss => exact h.syncMissRegs
  | _ => exact h

/-- Settles O17: reset meets the invariant; every instruction, an illegal byte and an idle cycle keep it. -/
theorem stepKeepsTheInvariant : Obligations.StepKeepsTheInvariant := by
  unfold Obligations.StepKeepsTheInvariant
  intro s h
  obtain ⟨t, ht, hr, -⟩ := step_regs s
  refine ⟨t, ht, ?_⟩
  beta_reduce
  rw [hr]
  exact s.pins.regsAfter_cases inv_reset (h.regsAfter s.pins.now) (h.congr h.symcnt_le rfl rfl id) h

/-- Settles O18, the base case of the invariant. -/
theorem resetMeetsTheInvariant : Obligations.ResetMeetsTheInvariant := by
  unfold Obligations.ResetMeetsTheInvariant
  exact inv_reset

end Sys2Proof.Machine
end

section
/-! Reset (10_state R48, 40_host_commands R136). -/
namespace Sys2Proof.Machine

theorem allZero_reset : AllZero Regs.reset where
  frame _ := rfl
  wbuf := rfl
  symcnt := rfl
  hold := rfl
  invAct := rfl
  violAct := rfl
  cfg := rfl
  status := rfl
  tstamp := rfl

theorem Pins.instr_eq_some {p : Pins} {i : Instr} (h : p.instr = some i) :
    p.rst = false ∧ p.cmdValid = true ∧ decodeCmd p.cmd = .instr i := by
  unfold Pins.instr at h
  split at h
  · cases h
  next hp =>
    cases hd : decodeCmd p.cmd with
    | instr j => simp_all
    | illegal why => simp [hd] at h

theorem Pins.regsAfter_of_instr {p : Pins} {i : Instr} (h : p.instr = some i) (r : Regs) :
    p.regsAfter r = Machine.regsAfter p.now r i := by
  obtain ⟨hrst, hvalid, hd⟩ := Pins.instr_eq_some h
  simp [Pins.regsAfter, hrst, hvalid, hd]

/-- The pin and SRST have one effect (40_host_commands R136). -/
theorem Pins.regsAfter_of_resets {p : Pins} (h : p.resets = true) (r : Regs) : p.regsAfter r = Regs.reset := by
  rcases Bool.or_eq_true_iff.mp h with hrst | hsrst
  · simp [Pins.regsAfter, hrst]
  · exact Pins.regsAfter_of_instr (beq_iff_eq.mp hsrst) r

/-- Settles O13: both resets make the registers `Regs.reset` (`Pins.regsAfter_of_resets`). -/
theorem resetClearsEveryItem : Obligations.ResetClearsEveryItem := by
  unfold Obligations.ResetClearsEveryItem
  refine ⟨allZero_reset, fun s => rfl, fun s h => ?_⟩
  obtain ⟨t, ht, hr, -⟩ := step_regs s
  rw [Pins.regsAfter_of_resets h] at hr
  exact ⟨t, ht, hr ▸ allZero_reset, hr⟩

end Sys2Proof.Machine
end

section
/-! The output function (10_state R50 to R53): its status and frame outputs as numbers, the four items it depends on, and
the fields of a lane that the dialect decides. -/
namespace Sys2Proof.Machine

/-! ## The packed registers -/

theorem append_flagBit_toNat {n : Nat} (x : BitVec n) (b : Bool) : (x ++ flagBit b).toNat = 2 * x.toNat + b.toNat := by
  have hb : (flagBit b).toNat = b.toNat := by cases b <;> rfl
  rw [BitVec.toNat_append, hb, ← Nat.shiftLeft_add_eq_or_of_lt b.toNat_lt, Nat.shiftLeft_eq]
  omega

theorem Result.code_toNat (r : Result) : r.code.toNat = resultNat r := by cases r <;> rfl

theorem Dialect.code_toNat (d : Dialect) : d.code.toNat = dialectNat d := by cases d <;> rfl

/-- A word that ends in a flag determines the flag and the bits before it. -/
theorem append_flagBit_inj {n : Nat} {x y : BitVec n} {a b : Bool} (h : x ++ flagBit a = y ++ flagBit b) :
    x = y ∧ a = b := by
  have hn := congrArg BitVec.toNat h
  rw [append_flagBit_toNat, append_flagBit_toNat] at hn
  have ha := a.toNat_le
  have hb := b.toNat_le
  have hbit : Function.Injective Bool.toNat := Bool.injective_iff.mpr nofun
  exact ⟨BitVec.eq_of_toNat_eq (by omega), hbit (by omega)⟩

theorem Result.code_injective : Function.Injective Result.code := by
  intro r r' h
  cases r <;> cases r' <;> cases h <;> rfl

theorem Dialect.code_injective : Function.Injective Dialect.code := fun d d' h =>
  Option.some.inj (by rw [← Dialect.ofCode_code d, h, Dialect.ofCode_code])

/-- STATUS as a number (10_state R41). -/
theorem Regs.statusWord_toNat (r : Regs) :
    r.statusWord.toNat = 8 * resultNat r.result + 4 * r.newFlag.toNat + 2 * r.ovr.toNat + r.cmderr.toNat := by
  rw [Regs.statusWord, append_flagBit_toNat, append_flagBit_toNat, append_flagBit_toNat, Result.code_toNat]
  omega

/-- CFG as a number (10_state R40). -/
theorem Regs.cfgWord_toNat (r : Regs) : r.cfgWord.toNat = 2 * dialectNat r.dialect + r.inv.toNat := by
  rw [Regs.cfgWord, append_flagBit_toNat, Dialect.code_toNat]

/-- STATUS determines RESULT and NEW. -/
theorem Regs.of_statusWord_eq {r r' : Regs} (h : r.statusWord = r'.statusWord) :
    r.result = r'.result ∧ r.newFlag = r'.newFlag := by
  obtain ⟨h, -⟩ := append_flagBit_inj h
  obtain ⟨h, -⟩ := append_flagBit_inj h
  obtain ⟨hcode, hnew⟩ := append_flagBit_inj h
  exact ⟨Result.code_injective hcode, hnew⟩

/-- CFG determines DIALECT. -/
theorem Regs.of_cfgWord_eq {r r' : Regs} (h : r.cfgWord = r'.cfgWord) : r.dialect = r'.dialect :=
  Dialect.code_injective (append_flagBit_inj h).1

/-! ## The four items -/

/-- The 600-bit view reads the bytes and nothing else of the memory. -/
theorem Memory.fb_congr {m m' : Memory} (h : ∀ i, m.get i = m'.get i) : m.fb = m'.fb := by
  apply BitVec.eq_of_getMsbD_eq
  intro a ha
  rw [Memory.fb_getMsbD m ha, Memory.fb_getMsbD m' ha, h]

/-- Decode is a function of FRAME, STATUS, CFG and TSTAMP (10_state R50). -/
theorem decodeOutputs_congr {r r' : Regs} (hframe : ∀ i, r.frame.get i = r'.frame.get i)
    (hstatus : r.statusWord = r'.statusWord) (hcfg : r.cfgWord = r'.cfgWord) (hts : r.tstamp = r'.tstamp) :
    decodeOutputs r = decodeOutputs r' := by
  have hfb := Memory.fb_congr hframe
  obtain ⟨hresult, hnew⟩ := Regs.of_statusWord_eq hstatus
  have hdialect := Regs.of_cfgWord_eq hcfg
  have hlane (k : Lane) : r.laneRecord k = r'.laneRecord k := by
    rw [Regs.laneRecord, Regs.laneRecord, Regs.frameValid, Regs.frameValid, Regs.msg, Regs.msg, memRead, memRead, hfb,
      hresult, hdialect, hts]
  rw [decodeOutputs, decodeOutputs, Regs.irq, Regs.irq, Regs.framePresent, Regs.framePresent, Regs.frameValid,
    Regs.frameValid, hlane, hlane, hlane, hfb, hresult, hnew, hdialect, hstatus, hcfg, hts]

/-! ## The status and frame outputs -/

theorem Regs.framePresent_iff (r : Regs) : r.framePresent = true ↔ r.result = .syncOk ∨ r.result = .syncFail := by
  simp [Regs.framePresent]

/-- A lane has a record exactly when the frame is valid (42_frame_sync R172, R173). -/
theorem Regs.laneRecord_isSome (r : Regs) (k : Lane) : (r.laneRecord k).isSome = true ↔ r.result = .syncOk := by
  simp [Regs.laneRecord, r.frameValid_iff]

theorem decodeOutputs_frameBytes (r : Regs) {a : Nat} (ha : a < 600) :
    (decodeOutputs r).frameBytes.getMsbD a =
      if r.result = .syncOk ∨ r.result = .syncFail then frameBit r a else false := by
  simp only [decodeOutputs, r.framePresent_iff]
  split
  · rw [Memory.fb_getMsbD _ ha, frameBit]
  · simp

/-! ## The fields the dialect decides -/

theorem Regs.laneRecord_eq_some {r : Regs} {k : Lane} {L : LaneOut} (h : r.laneRecord k = some L) :
    L = laneOutputs r.tstamp r.dialect (r.msg k) := by
  unfold Regs.laneRecord at h
  split at h
  · exact (Option.some.inj h).symm
  · cases h

/-! ## The statements -/

/-- Settles O16: both steps end settled, and Decode is a function of the four items (`decodeOutputs_congr`). -/
theorem outputsDependOnFourItemsOnly : Obligations.OutputsDependOnFourItemsOnly := by
  unfold Obligations.OutputsDependOnFourItemsOnly
  intro s u
  obtain ⟨t, ht, hset⟩ := step_settled s
  obtain ⟨v, hv, hset'⟩ := step_settled u
  refine ⟨t, ht, v, hv, fun hframe hstatus hcfg hts => ?_⟩
  rw [show t.out = _ from hset, show v.out = _ from hset', decodeOutputs_congr hframe hstatus hcfg hts]

/-- Settles O19: each output of the output function as a number or a test of RESULT. -/
theorem statusAndFramePorts : Obligations.StatusAndFramePorts := by
  unfold Obligations.StatusAndFramePorts
  intro s
  obtain ⟨t, ht, hset⟩ := step_settled s
  have hlanes (k : Lane) : (t.out.lane k).isSome = true ↔ t.regs.result = .syncOk := by
    rw [hset.lane, Regs.laneRecord_isSome]
  refine ⟨t, ht, ?_⟩
  beta_reduce
  rw [show t.out = decodeOutputs t.regs from hset] at hlanes ⊢
  refine ⟨rfl, t.regs.statusWord_toNat, t.regs.cfgWord_toNat, t.regs.framePresent_iff, t.regs.frameValid_iff, rfl, ?_,
    Dialect.code_toNat _, fun a => decodeOutputs_frameBytes t.regs, ?_, hlanes⟩
  · simp only [decodeOutputs, t.regs.framePresent_iff]
    split <;> rfl
  · simp only [decodeOutputs, t.regs.frameValid_iff]
    split <;> rfl

/-- Settles O57: each such field of the output function's record is a test of the dialect. -/
theorem optionalFieldsFollowTheDialect : Obligations.OptionalFieldsFollowTheDialect := by
  unfold Obligations.OptionalFieldsFollowTheDialect
  intro s
  obtain ⟨t, ht, hset⟩ := step_settled s
  refine ⟨t, ht, fun k L hL => ?_⟩
  obtain rfl := Regs.laneRecord_eq_some (hset.lane k ▸ hL)
  refine ⟨Dialect.code_toNat _, ?_⟩
  cases t.regs.dialect <;> simp [laneOutputs, Dialect.isSarsat]

end Sys2Proof.Machine
end

section
/-! SUPPORT. Bit fields as numbers and under a mask: a field equals a value exactly when the word, under the field's mask,
equals the value in the field's place (30_encoding R119). -/
namespace Sys2Proof

/-! ## Fields as numbers -/

theorem toNat_extractLsb' {n : Nat} (s : BitVec n) (lo w : Nat) :
    (s.extractLsb' lo w).toNat = s.toNat / 2 ^ lo % 2 ^ w := by
  rw [BitVec.extractLsb'_toNat, Nat.shiftRight_eq_div_pow]

/-- A field at bit `lo` (conventional numbering) equals a value exactly when its number does. -/
theorem extractLsb'_eq_iff {n w : Nat} (s : BitVec n) (lo : Nat) (v : BitVec w) :
    s.extractLsb' lo w = v ↔ s.toNat / 2 ^ lo % 2 ^ w = v.toNat := by
  rw [← BitVec.toNat_inj, toNat_extractLsb']

theorem bits_eq_iff {n : Nat} (s : BitVec n) (a : Nat) {w : Nat} (v : BitVec w) :
    bits s a w = v ↔ s.toNat / 2 ^ (n - a - w) % 2 ^ w = v.toNat :=
  extractLsb'_eq_iff s (n - a - w) v

theorem getLsbD_toNat {n : Nat} (s : BitVec n) (i : Nat) : (s.getLsbD i).toNat = s.toNat / 2 ^ i % 2 :=
  Nat.toNat_testBit s.toNat i

theorem getLsbD_eq_true_iff {n : Nat} (s : BitVec n) (i : Nat) : s.getLsbD i = true ↔ s.toNat / 2 ^ i % 2 = 1 := by
  rw [← getLsbD_toNat, Bool.toNat_eq_one]

theorem bitAt_eq_true_iff {n : Nat} (s : BitVec n) {i : Nat} (hi : i < n) :
    bitAt s i = true ↔ s.toNat / 2 ^ (n - 1 - i) % 2 = 1 := by
  rw [← getLsbD_eq_true_iff, bitAt, BitVec.getMsbD, decide_eq_true hi, Bool.true_and]

/-! ## Fields under a mask -/

/-- The mask of the w bits from bit `lo`. -/
def fieldMask (n lo w : Nat) : BitVec n := (BitVec.allOnes w).setWidth n <<< lo

/-- A word under the mask of a field is the field's value in its place exactly when the field has that value. -/
theorem and_fieldMask_eq_iff {n lo w : Nat} (s : BitVec n) (v : BitVec w) (h : lo + w ≤ n) :
    s &&& fieldMask n lo w = v.setWidth n <<< lo ↔ s.extractLsb' lo w = v := by
  constructor <;> intro he <;> apply BitVec.eq_of_getLsbD_eq <;> intro i hi
  · have hbit := congrArg (BitVec.getLsbD · (lo + i)) he
    have hin : lo + i < n := by omega
    have hi' : i < n := by omega
    simpa [fieldMask, hi, hin, hi'] using hbit
  · rw [← he]
    simp only [fieldMask, BitVec.getLsbD_and, BitVec.getLsbD_shiftLeft, BitVec.getLsbD_setWidth,
      BitVec.getLsbD_allOnes, BitVec.getLsbD_extractLsb', hi, decide_true, Bool.true_and]
    by_cases hlo : i < lo
    · simp [hlo]
    · have hsum : lo + (i - lo) = i := by omega
      have hin : i - lo < n := by omega
      simp [hlo, hsum, hin, Bool.and_comm]

/-- Two patterns with disjoint masks, joined: the joined pattern is met exactly when both are. Bit by bit at most one of
the two masks asks for anything. -/
theorem and_or_eq_or_iff {n : Nat} (s : BitVec n) {m v m' v' : BitVec n} (hv : v &&& m = v) (hv' : v' &&& m' = v')
    (hdisj : m &&& m' = 0#n) : s &&& (m ||| m') = v ||| v' ↔ s &&& m = v ∧ s &&& m' = v' := by
  have hbit : ∀ s m v m' v' : Bool, (v && m) = v → (v' && m') = v' → (m && m') = false →
      ((s && (m || m')) = (v || v') ↔ (s && m) = v ∧ (s && m') = v') := by decide
  simp only [BitVec.eq_of_getLsbD_eq_iff, BitVec.getLsbD_and, BitVec.getLsbD_or, BitVec.getLsbD_zero] at *
  rw [← forall₂_and]
  exact forall₂_congr fun i hi => hbit _ _ _ _ _ (hv i hi) (hv' i hi) (hdisj i hi)

end Sys2Proof
end

section
/-! SUPPORT. The command byte (30_encoding R92): the number of each command's byte, and that a byte decodes to an
instruction exactly when it is the byte of that well-formed command. -/
namespace Sys2Proof
open Laws.EncodingMatchesRow (codedFormat codedNat)

theorem eq_cmd_iff {w : Coded} (h : codedFormat w = .cmd) {c : Byte} : w = .cmd c ↔ codedNat w = c.toNat := by
  cases w with
  | cmd b => rw [Coded.cmd.injEq, ← BitVec.toNat_inj]; rfl
  | pair | frame | msg | payload => cases h

/-! ## The number of each command's byte -/

theorem codedNat_nop : codedNat (encode .nop) = 0x00 := rfl

theorem codedNat_sym (l b : Bool) : codedNat (encode (.sym l b)) = 0x10 + 2 * l.toNat + b.toNat := by
  cases l <;> cases b <;> rfl

theorem codedNat_setdialect (dd : BitVec 2) : codedNat (encode (.setdialect dd)) = 0x20 + dd.toNat := by
  revert dd; decide

theorem codedNat_setinv (v : Bool) : codedNat (encode (.setinv v)) = 0x30 + v.toNat := by cases v <;> rfl

theorem codedNat_ack (c b a : Bool) :
    codedNat (encode (.ack c b a)) = 0x40 + 4 * c.toNat + 2 * b.toNat + a.toNat := by
  cases c <;> cases b <;> cases a <;> rfl

theorem codedNat_srst : codedNat (encode .srst) = 0x50 := rfl

theorem setdialect_wellFormed_iff {dd : BitVec 2} : (Instr.setdialect dd).wellFormed = true ↔ dd.toNat ≤ 2 := by
  revert dd; decide

/-- The numbers of the table's rows. -/
def IsCommandNumber (n : Nat) : Prop :=
  n = 0x00 ∨ 0x10 ≤ n ∧ n ≤ 0x13 ∨ 0x20 ≤ n ∧ n ≤ 0x22 ∨ 0x30 ≤ n ∧ n ≤ 0x31 ∨ 0x40 ≤ n ∧ n ≤ 0x47 ∨ n = 0x50

theorem isCommandNumber_encode {i : Instr} (hwf : i.wellFormed = true) (hcmd : i.format = .cmd) :
    IsCommandNumber (codedNat (encode i)) := by
  unfold IsCommandNumber
  match i, hcmd with
  | .nop, _ => simp [codedNat_nop]
  | .sym l b, _ =>
    have hl := l.toNat_le
    have hb := b.toNat_le
    rw [codedNat_sym]; omega
  | .setdialect dd, _ =>
    have hdd := setdialect_wellFormed_iff.mp hwf
    rw [codedNat_setdialect]; omega
  | .setinv v, _ =>
    have hv := v.toNat_le
    rw [codedNat_setinv]; omega
  | .ack c b a, _ =>
    have hc := c.toNat_le
    have hb := b.toNat_le
    have ha := a.toNat_le
    rw [codedNat_ack]; omega
  | .srst, _ => simp [codedNat_srst]

/-! ## Decode and encode -/

theorem decodeAll_cmd_eq_singleton {c : Byte} {i : Instr} : decodeAll (.cmd c) = [i] ↔ decodeCmd c = .instr i := by
  cases h : decodeCmd c <;> simp [decodeAll, h]

/-- The byte written for a well-formed command decodes to it. -/
theorem decodeAll_encode_cmd {i : Instr} (hwf : i.wellFormed = true) (hcmd : i.format = .cmd) :
    decodeAll (encode i) = [i] := by
  match i, hcmd with
  | .nop, _ => rfl
  | .sym l b, _ => cases l <;> cases b <;> rfl
  | .setdialect dd, _ => revert hwf; revert dd; decide
  | .setinv v, _ => cases v <;> rfl
  | .ack c b a, _ => cases c <;> cases b <;> cases a <;> rfl
  | .srst, _ => rfl

/-- A byte that decodes is the byte of a well-formed command: in each legal branch of the decoder the tested fields and
the operand's bits make up the whole byte. -/
theorem encode_of_decodeCmd {c : Byte} {i : Instr} (h : decodeCmd c = .instr i) :
    i.wellFormed = true ∧ i.format = .cmd ∧ encode i = .cmd c := by
  have hc : c.toNat < 256 := c.isLt
  simp only [decodeCmd, extractLsb'_eq_iff, getLsbD_eq_true_iff, BitVec.ofNat_eq_ofNat, BitVec.toNat_ofNat,
    Nat.reducePow, Nat.reduceMod] at h
  split_ifs at h <;> cases h
  · exact ⟨rfl, rfl, (eq_cmd_iff rfl).mpr (by rw [codedNat_nop]; omega)⟩
  · exact ⟨rfl, rfl, (eq_cmd_iff rfl).mpr (by rw [codedNat_sym, getLsbD_toNat, getLsbD_toNat]; omega)⟩
  · refine ⟨?_, rfl, (eq_cmd_iff rfl).mpr (by rw [codedNat_setdialect, toNat_extractLsb']; omega)⟩
    rw [setdialect_wellFormed_iff, toNat_extractLsb']
    omega
  · exact ⟨rfl, rfl, (eq_cmd_iff rfl).mpr (by rw [codedNat_setinv, getLsbD_toNat]; omega)⟩
  · exact ⟨rfl, rfl, (eq_cmd_iff rfl).mpr (by rw [codedNat_ack, getLsbD_toNat, getLsbD_toNat, getLsbD_toNat]; omega)⟩
  · exact ⟨rfl, rfl, (eq_cmd_iff rfl).mpr (by rw [codedNat_srst]; omega)⟩

theorem decodeCmd_eq_instr_iff {c : Byte} {i : Instr} :
    decodeCmd c = .instr i ↔ i.wellFormed = true ∧ i.format = .cmd ∧ encode i = .cmd c :=
  ⟨encode_of_decodeCmd, fun ⟨hwf, hcmd, hword⟩ =>
    decodeAll_cmd_eq_singleton.mp (hword ▸ decodeAll_encode_cmd hwf hcmd)⟩

theorem decodeCmd_of_codedNat {c : Byte} {i : Instr} (hwf : i.wellFormed = true) (hcmd : i.format = .cmd)
    (hword : codedFormat (encode i) = .cmd) (hnum : codedNat (encode i) = c.toNat) : decodeCmd c = .instr i :=
  decodeCmd_eq_instr_iff.mpr ⟨hwf, hcmd, (eq_cmd_iff hword).mpr hnum⟩

/-- A byte whose number is no row's is illegal (30_encoding R92). -/
theorem decodeCmd_illegal {c : Byte} (h : ¬ IsCommandNumber c.toNat) : ∃ why, decodeCmd c = .illegal why := by
  cases hd : decodeCmd c with
  | illegal why => exact ⟨why, rfl⟩
  | instr i =>
    obtain ⟨hwf, hcmd, hword⟩ := encode_of_decodeCmd hd
    refine absurd (isCommandNumber_encode hwf hcmd) ?_
    rwa [hword]

end Sys2Proof
end

section
/-! SUPPORT. What a frame, a message and a payload select (30_encoding R102, R109 to R113): the frame by its six bytes, a
message's operations by its class, its dialect and its validity, a payload's protocol operation by P[1] and P[11:14). -/
namespace Sys2Proof
open Machine

/-! ## The frame pattern -/

theorem decodeFrame_eq_syncMatch_iff (f : FrameBits) : decodeFrame f = .syncMatch ↔ syncMatch f = true := by
  cases h : syncMatch f <;> simp [decodeFrame, h]

theorem decodeFrame_eq_syncMiss_iff (f : FrameBits) : decodeFrame f = .syncMiss ↔ syncMatch f = false := by
  cases h : syncMatch f <;> simp [decodeFrame, h]

/-- The pattern as three marker bytes and the sync word (42_frame_sync R171). -/
theorem syncMatch_iff_fields (f : FrameBits) : syncMatch f = true ↔
    ((frameByte f 0 = Config.MARKER ∧ frameByte f 24 = Config.MARKER) ∧ frameByte f 48 = Config.MARKER) ∧
      bits f 576 24 = Config.SYNC := by
  simp only [syncMatch, Bool.and_eq_true, beq_iff_eq]

theorem frameByte_toNat (f : FrameBits) {i : Nat} (hi : i < 75) : (frameByte f i).toNat = byteNat f i := by
  have hpow : 2 ^ (600 - 8 * i - 8) = 256 ^ (74 - i) := by
    rw [show (256 : Nat) = 2 ^ 8 from rfl, ← pow_mul]
    congr 1
    omega
  rw [frameByte, bits_toNat, hpow]
  rfl

theorem frameByte_eq_iff (f : FrameBits) {i : Nat} (hi : i < 75) (b : Byte) :
    frameByte f i = b ↔ byteNat f i = b.toNat := by
  rw [← BitVec.toNat_inj, frameByte_toNat f hi]

/-- The mask of the marker byte at bit `lo` of the frame. -/
theorem and_markerMask_eq_iff (f : FrameBits) {lo : Nat} (h : lo + 8 ≤ 600) :
    f &&& 0xFF#600 <<< lo = 0xD6#600 <<< lo ↔ f.extractLsb' lo 8 = Config.MARKER := by
  have hmask : (BitVec.allOnes 8).setWidth 600 = 0xFF#600 := by decide +kernel
  have hmarker : Config.MARKER.setWidth 600 = 0xD6#600 := by decide +kernel
  rw [← and_fieldMask_eq_iff f _ h, fieldMask, hmask, hmarker]

/-- The mask of the sync word at the end of the frame. -/
theorem and_syncMask_eq_iff (f : FrameBits) : f &&& 0xFFFFFF#600 = 0x42BB1F#600 ↔ bits f 576 24 = Config.SYNC := by
  have hmask : (BitVec.allOnes 24).setWidth 600 = 0xFFFFFF#600 := by decide +kernel
  have hsync : Config.SYNC.setWidth 600 = 0x42BB1F#600 := by decide +kernel
  rw [bits, ← and_fieldMask_eq_iff f _ (by omega), fieldMask, hmask, hsync, BitVec.shiftLeft_zero,
    BitVec.shiftLeft_zero]

/-- The whole mask and match of 30_encoding R102 are those of the four fields, whose masks are disjoint. -/
theorem and_syncPattern_eq_iff (f : FrameBits) :
    f &&& (0xFF#600 <<< 592 ||| 0xFF#600 <<< 400 ||| 0xFF#600 <<< 208 ||| 0xFFFFFF#600) =
        (0xD6#600 <<< 592 ||| 0xD6#600 <<< 400 ||| 0xD6#600 <<< 208 ||| 0x42BB1F#600) ↔
      ((f &&& 0xFF#600 <<< 592 = 0xD6#600 <<< 592 ∧ f &&& 0xFF#600 <<< 400 = 0xD6#600 <<< 400) ∧
        f &&& 0xFF#600 <<< 208 = 0xD6#600 <<< 208) ∧ f &&& 0xFFFFFF#600 = 0x42BB1F#600 := by
  rw [and_or_eq_or_iff, and_or_eq_or_iff, and_or_eq_or_iff] <;> decide +kernel

/-- The sync word is the frame's last three bytes. -/
theorem syncWord_eq_iff (f : FrameBits) :
    bits f 576 24 = Config.SYNC ↔ byteNat f 72 = 0x42 ∧ byteNat f 73 = 0xBB ∧ byteNat f 74 = 0x1F := by
  have hsync : Config.SYNC.toNat = 0x42BB1F := rfl
  rw [bits_eq_iff, hsync, byteNat, byteNat, byteNat]
  norm_num
  omega

/-! ## The message operations -/

theorem mem_decodeMsg {i : Instr} {k : Lane} {d : Dialect} {M : MsgBits} : i ∈ decodeMsg k d M ↔
    i = .msgWords k ∨ i = fmtOp k (classify M) ∨ i ∈ chkOps k d (classify M) ∨ i ∈ w0Ops k d ∨ i = tcOp k d ∨
      fmtValidOf d M = true ∧ i ∈ payOps k d (classify M) := by
  simp only [decodeMsg, List.mem_append, List.mem_cons, List.not_mem_nil, or_false, List.mem_ite_nil_right,
    or_assoc]

/-- A classification operation is none of the other operations of a message. -/
theorem fmtOp_notMem (k : Lane) (c c' : FormatClass) (d : Dialect) :
    fmtOp k c ≠ .msgWords k ∧ fmtOp k c ∉ chkOps k d c' ∧ fmtOp k c ∉ w0Ops k d ∧ fmtOp k c ≠ tcOp k d ∧
      fmtOp k c ∉ payOps k d c' := by
  cases c <;> cases d <;> cases c' <;> simp [fmtOp, chkOps, w0Ops, tcOp, payOps]

theorem fmtOp_injective (k : Lane) : Function.Injective (fmtOp k) := by
  intro c c' h
  cases c <;> cases c' <;> cases h <;> rfl

/-- A message selects the classification operation of its class and no other, under every dialect. -/
theorem fmtOp_mem_decodeMsg {k : Lane} {c : FormatClass} {d : Dialect} {M : MsgBits} :
    fmtOp k c ∈ decodeMsg k d M ↔ classify M = c := by
  obtain ⟨hwords, hchk, hw0, htc, hpay⟩ := fmtOp_notMem k c (classify M) d
  rw [mem_decodeMsg]
  simp only [hwords, hchk, hw0, htc, hpay, and_false, false_or, or_false]
  rw [(fmtOp_injective k).eq_iff, eq_comm]

theorem classify_eq_housekeeping {M : MsgBits} : classify M = .housekeeping ↔ wordOf M 2 = Config.HK_WORD2 := by
  unfold classify
  split_ifs with h2 h7
  · exact iff_of_true rfl h2
  · exact iff_of_false nofun h2
  · exact iff_of_false nofun h2

/-- word2 as a number (20_memory R63). -/
theorem wordTwo_eq_iff (M : MsgBits) (w : Word24) : wordOf M 2 = w ↔ M.toNat / 2 ^ 120 % 2 ^ 24 = w.toNat :=
  bits_eq_iff M 48 w

/-- word7 as a number (20_memory R63). -/
theorem wordSeven_eq_iff (M : MsgBits) (w : Word24) : wordOf M 7 = w ↔ M.toNat % 2 ^ 24 = w.toNat := by
  have h := bits_eq_iff M 168 w
  rwa [show 2 ^ (192 - 168 - 24) = 1 from rfl, Nat.div_one] at h

/-! ## The payload operations -/

theorem mem_decodePayload {i : Instr} {k : Lane} {len : PayloadLen} {P : PayloadBits} : i ∈ decodePayload k len P ↔
    i = .bcnHdr k ∨ i = .bcnCountry k ∨ i = .bcnBch1 k ∨ len = .len120 ∧ i = .bcnBch2 k ∨ i = protoOp k P ∨
      len = .len120 ∧ i = .bcnPos k := by
  simp only [decodePayload, List.mem_append, List.mem_cons, List.not_mem_nil, or_false, List.mem_ite_nil_right,
    or_assoc]

/-- The protocol operation of a USER payload with number n: `protoOp` where `P[1]` is 1 (`protoOp_of_user`). -/
def userOp (k : Lane) (n : BitVec 3) : Instr :=
  match n.toNat with
  | 0 => .protoUser0 k
  | 1 => .protoUser1 k
  | 2 => .protoUser2 k
  | 3 => .protoUser3 k
  | 4 => .protoUser4 k
  | 5 => .protoUser5 k
  | 6 => .protoUser6 k
  | _ => .protoUser7 k

theorem protoOp_of_user {k : Lane} {P : PayloadBits} (h : protocolFlagOf P = true) :
    protoOp k P = userOp k (protocolNumOf P) := by
  rw [protoOp, if_pos h]
  rfl

theorem protoOp_of_standard {k : Lane} {P : PayloadBits} (h : protocolFlagOf P = false) :
    protoOp k P = .protoStdnat k := by
  rw [protoOp, h]
  rfl

theorem userOp_injective (k : Lane) : Function.Injective (userOp k) := by
  unfold Function.Injective
  cases k <;> decide

theorem userOp_ne (k : Lane) (n : BitVec 3) :
    userOp k n ≠ .bcnHdr k ∧ userOp k n ≠ .bcnCountry k ∧ userOp k n ≠ .bcnBch1 k ∧ userOp k n ≠ .bcnBch2 k ∧
      userOp k n ≠ .bcnPos k ∧ userOp k n ≠ .protoStdnat k := by
  revert n; cases k <;> decide

theorem protoOp_eq_userOp_iff {k : Lane} {P : PayloadBits} {n : BitVec 3} :
    protoOp k P = userOp k n ↔ protocolFlagOf P = true ∧ protocolNumOf P = n := by
  obtain ⟨-, -, -, -, -, hstd⟩ := userOp_ne k n
  cases h : protocolFlagOf P with
  | true => simp [protoOp_of_user h, (userOp_injective k).eq_iff]
  | false => simp [protoOp_of_standard h, hstd.symm]

theorem protoOp_eq_standard_iff {k : Lane} {P : PayloadBits} :
    protoOp k P = .protoStdnat k ↔ protocolFlagOf P = false := by
  cases h : protocolFlagOf P with
  | true =>
    obtain ⟨-, -, -, -, -, hstd⟩ := userOp_ne k (protocolNumOf P)
    simp [protoOp_of_user h, hstd]
  | false => simp [protoOp_of_standard h]

theorem protocolFlag_eq_true_iff (P : PayloadBits) : protocolFlagOf P = true ↔ P.toNat / 2 ^ 118 % 2 = 1 :=
  bitAt_eq_true_iff P (by omega)

theorem protocolNum_eq_iff (P : PayloadBits) (n : BitVec 3) : protocolNumOf P = n ↔ P.toNat / 2 ^ 106 % 8 = n.toNat :=
  bits_eq_iff P 11 n

/-- A payload selects a USER operation exactly when `P[1]` is 1 and `P[11:14)` is its number (30_encoding R113). -/
theorem userOp_mem_decodePayload {k : Lane} {len : PayloadLen} {P : PayloadBits} (n : BitVec 3) :
    userOp k n ∈ decodePayload k len P ↔ P.toNat / 2 ^ 118 % 2 = 1 ∧ P.toNat / 2 ^ 106 % 8 = n.toNat := by
  obtain ⟨hhdr, hcountry, hbch1, hbch2, hpos, -⟩ := userOp_ne k n
  rw [mem_decodePayload, ← protocolFlag_eq_true_iff, ← protocolNum_eq_iff, ← protoOp_eq_userOp_iff (k := k)]
  simp only [hhdr, hcountry, hbch1, hbch2, hpos, and_false, false_or, or_false]
  exact eq_comm

/-- A payload selects the STANDARD_NATIONAL operation exactly when `P[1]` is 0 (30_encoding R113). -/
theorem protoStdnat_mem_decodePayload {k : Lane} {len : PayloadLen} {P : PayloadBits} :
    .protoStdnat k ∈ decodePayload k len P ↔ P.toNat / 2 ^ 118 % 2 = 0 := by
  rw [mem_decodePayload, ← Nat.mod_two_ne_one, ne_eq, ← protocolFlag_eq_true_iff, Bool.not_eq_true,
    ← protoOp_eq_standard_iff (k := k)]
  simp [eq_comm]

end Sys2Proof
end

section
/-! SUPPORT. The words that stand for the lane operations: the class, the validity and the protocol of each, and that it
selects its operation (30_encoding R119, assumption 9). -/
namespace Sys2Proof
open Machine
open Laws.EncodingMatchesRow (codedFormat codedNat)

theorem rowWord_eq_zero {w : Nat} {i : Instr} (h : i.row.2 = 0) : i.rowWord w = 0#w := by rw [Instr.rowWord, h]

theorem rowWord_eq_of_row {w : Nat} {i j : Instr} (h : i.row = j.row) : i.rowWord w = j.rowWord w := by
  rw [Instr.rowWord, h, Instr.rowWord]

/-- A row that matches every word adds nothing to the word its `when` column asks for. -/
theorem rowWord_or {w : Nat} {i : Instr} (v : BitVec w) (h : i.row.2 = 0) : i.rowWord w ||| v = v := by
  rw [rowWord_eq_zero h, BitVec.zero_or]

theorem classify_rowWord_fmtHk (k : Lane) : classify ((Instr.fmtHk k).rowWord 192) = .housekeeping := by
  rw [classify_eq_housekeeping, wordTwo_eq_iff, Instr.rowWord, Instr.row]
  rfl

theorem classify_shortMsg : classify shortMsg = .short := rfl

theorem classify_longMsg (d : Dialect) : classify (longMsg d) = .long := by cases d <;> rfl

theorem fmtValidOf_shortMsg (d : Dialect) : fmtValidOf d shortMsg = true := by cases d <;> rfl

theorem fmtValidOf_longMsg (d : Dialect) : fmtValidOf d (longMsg d) = true := by cases d <;> rfl

/-- What a message selects whatever its class: its words, its word0 operations and its timecode. -/
theorem mem_decodeMsg_of_dialect {i : Instr} {k : Lane} {d : Dialect} (M : MsgBits)
    (h : i = .msgWords k ∨ i ∈ w0Ops k d ∨ i = tcOp k d) : i ∈ decodeMsg k d M := by
  rw [mem_decodeMsg]
  tauto

/-- What a format-valid message selects by its class. -/
theorem mem_decodeMsg_of_valid {i : Instr} {k : Lane} {d : Dialect} {M : MsgBits} (hv : fmtValidOf d M = true)
    (h : i = fmtOp k (classify M) ∨ i ∈ chkOps k d (classify M) ∨ i ∈ payOps k d (classify M)) :
    i ∈ decodeMsg k d M := by
  rw [mem_decodeMsg]
  tauto

theorem mem_decodeMsg_shortMsg {i : Instr} {k : Lane} {d : Dialect}
    (h : i = fmtOp k .short ∨ i ∈ chkOps k d .short ∨ i ∈ payOps k d .short) : i ∈ decodeMsg k d shortMsg :=
  mem_decodeMsg_of_valid (fmtValidOf_shortMsg d) h

theorem mem_decodeMsg_longMsg {i : Instr} {k : Lane} {d : Dialect}
    (h : i = fmtOp k .long ∨ i ∈ chkOps k d .long ∨ i ∈ payOps k d .long) : i ∈ decodeMsg k d (longMsg d) := by
  refine mem_decodeMsg_of_valid (fmtValidOf_longMsg d) ?_
  rwa [classify_longMsg]

/-- The word written for a message operation selects it: by the dialect alone, by its class, or as the SHORT or the LONG
format-valid message. -/
theorem mem_decodeAll_encode_msg {i : Instr} (h : i.format = .msg) : i ∈ decodeAll (encode i) := by
  match i, h with
  | .msgWords k, _ => exact mem_decodeMsg_of_dialect _ (by simp)
  | .w0Level k, _ | .w0Rt k, _ | .w0Latest k, _ | .w0S2Dru k, _ | .w0S2Pseudo k, _ | .w0S3Type k, _
  | .w0S3Serial k, _ | .w0C2 k, _ => exact mem_decodeMsg_of_dialect _ (by simp [w0Ops])
  | .tcSarsat k, _ | .tcC2 k, _ => exact mem_decodeMsg_of_dialect _ (by simp [tcOp])
  | .fmtHk k, _ => exact (fmtOp_mem_decodeMsg (c := .housekeeping)).mpr (classify_rowWord_fmtHk k)
  | .fmtLong k, _ =>
    rw [encode, rowWord_eq_zero rfl]
    exact (fmtOp_mem_decodeMsg (c := .long)).mpr rfl
  | .fmtShort k, _ =>
    rw [encode, rowWord_eq_of_row (i := .fmtShort k) (j := .fmtShort .k0) rfl]
    exact mem_decodeMsg_shortMsg (.inl rfl)
  | .chkS2Short k, _ | .chkS3Short k, _ | .chkC2Short k, _ | .payShortS2 k, _ | .payShortS3 k, _
  | .payShortC2 k, _ | .dopShort k, _ =>
    rw [encode, rowWord_or shortMsg rfl]
    exact mem_decodeMsg_shortMsg (by simp [chkOps, payOps])
  | .chkS2Long k, _ =>
    rw [encode, rowWord_eq_of_row (i := .chkS2Long k) (j := .chkS2Long .k0) rfl]
    exact mem_decodeMsg_longMsg (d := .s2) (by simp [chkOps])
  | .chkS3Long k, _ =>
    rw [encode, rowWord_eq_of_row (i := .chkS3Long k) (j := .chkS3Long .k0) rfl]
    exact mem_decodeMsg_longMsg (d := .s3) (by simp [chkOps])
  | .chkC2Long k, _ =>
    rw [encode, rowWord_eq_of_row (i := .chkC2Long k) (j := .chkC2Long .k0) rfl]
    exact mem_decodeMsg_longMsg (d := .c2) (by simp [chkOps])
  | .payLongS2 k, _ | .payLongS3 k, _ | .payLongC2 k, _ | .dopLong k, _ =>
    rw [encode, rowWord_or (longMsg _) rfl]
    exact mem_decodeMsg_longMsg (by simp [payOps])

/-- The word written for a payload operation selects it: by the length alone, or by its protocol. -/
theorem mem_decodeAll_encode_payload {i : Instr} (h : i.format = .payload) : i ∈ decodeAll (encode i) := by
  match i, h with
  | .bcnHdr k, _ | .bcnCountry k, _ | .bcnBch1 k, _ | .bcnBch2 k, _ | .bcnPos k, _ =>
    exact mem_decodePayload.mpr (by simp)
  | .protoStdnat k, _ => exact protoStdnat_mem_decodePayload.mpr (by simp [Instr.rowWord, Instr.row])
  | .protoUser0 k, _ => exact (userOp_mem_decodePayload 0#3).mpr (by simp [Instr.rowWord, Instr.row])
  | .protoUser1 k, _ => exact (userOp_mem_decodePayload 1#3).mpr (by simp [Instr.rowWord, Instr.row])
  | .protoUser2 k, _ => exact (userOp_mem_decodePayload 2#3).mpr (by simp [Instr.rowWord, Instr.row])
  | .protoUser3 k, _ => exact (userOp_mem_decodePayload 3#3).mpr (by simp [Instr.rowWord, Instr.row])
  | .protoUser4 k, _ => exact (userOp_mem_decodePayload 4#3).mpr (by simp [Instr.rowWord, Instr.row])
  | .protoUser5 k, _ => exact (userOp_mem_decodePayload 5#3).mpr (by simp [Instr.rowWord, Instr.row])
  | .protoUser6 k, _ => exact (userOp_mem_decodePayload 6#3).mpr (by simp [Instr.rowWord, Instr.row])
  | .protoUser7 k, _ => exact (userOp_mem_decodePayload 7#3).mpr (by simp [Instr.rowWord, Instr.row])

theorem decodeAll_encode_pair {i : Instr} (h : i.format = .pair) : decodeAll (encode i) = [i] := by
  match i, h with
  | .pair01, _ | .pair10, _ | .pair00, _ | .pair11, _ => rfl

theorem decodeAll_encode_frame {i : Instr} (h : i.format = .frame) : decodeAll (encode i) = [i] := by
  match i, h with
  | .syncMatch, _ => exact congrArg (fun i => [i]) ((decodeFrame_eq_syncMatch_iff _).mpr (by decide +kernel))
  | .syncMiss, _ => exact congrArg (fun i => [i]) ((decodeFrame_eq_syncMiss_iff _).mpr (by decide +kernel))

/-! ## The statements -/

/-- Settles O1, format by format: a command, a pair or a frame selects one operation, a message or a payload a list that
holds the operation. -/
theorem encodedWordSelectsItsInstruction : Obligations.EncodedWordSelectsItsInstruction := by
  unfold Obligations.EncodedWordSelectsItsInstruction
  intro i hwf
  have honly : i.format = .cmd ∨ i.format = .pair ∨ i.format = .frame → decodeAll (encode i) = [i] := by
    rintro (hf | hf | hf)
    · exact decodeAll_encode_cmd hwf hf
    · exact decodeAll_encode_pair hf
    · exact decodeAll_encode_frame hf
  refine ⟨?_, honly⟩
  cases hf : i.format with
  | cmd | pair | frame =>
    rw [honly (by simp [hf])]
    exact List.mem_singleton_self i
  | msg => exact mem_decodeAll_encode_msg hf
  | payload => exact mem_decodeAll_encode_payload hf

/-- Settles O5: a classification operation is selected exactly by its class (`fmtOp_mem_decodeMsg`), and a word equals a
constant exactly when the message under the word's mask does (`and_fieldMask_eq_iff`). -/
theorem classFollowsWordTwoThenWordSeven : Obligations.ClassFollowsWordTwoThenWordSeven := by
  unfold Obligations.ClassFollowsWordTwoThenWordSeven
  intro k d M
  have hhk : wordOf M 2 = Config.HK_WORD2 ↔ M.toNat / 2 ^ 120 % 2 ^ 24 = 13516288 := wordTwo_eq_iff M Config.HK_WORD2
  have hshort : wordOf M 7 = Config.SHORT_WORD7 ↔ M.toNat % 2 ^ 24 = 1 := wordSeven_eq_iff M Config.SHORT_WORD7
  refine ⟨?_, ?_, ?_, ?_, ?_⟩
  · rw [← hhk, ← classify_eq_housekeeping]
    exact fmtOp_mem_decodeMsg (c := .housekeeping)
  · rw [ne_eq, ← hhk, ← hshort, ← ne_eq, ← classify_eq_short]
    exact fmtOp_mem_decodeMsg (c := .short)
  · rw [ne_eq, ne_eq, ← hhk, ← hshort, ← ne_eq, ← ne_eq, ← classify_eq_long]
    exact fmtOp_mem_decodeMsg (c := .long)
  · rw [← hhk]
    exact (and_fieldMask_eq_iff (lo := 120) M Config.HK_WORD2 (by omega)).symm
  · rw [← hshort]
    exact (and_fieldMask_eq_iff (lo := 0) M Config.SHORT_WORD7 (by omega)).symm

/-- Settles O6: the mask is the join of the masks of three bytes and the sync word (`and_or_eq_or_iff`), each of which is
met exactly when its field has its value. -/
theorem syncPatternTestsSixBytes : Obligations.SyncPatternTestsSixBytes := by
  unfold Obligations.SyncPatternTestsSixBytes
  intro f
  refine ⟨?_, ?_, ?_⟩
  · rw [decodeFrame_eq_syncMatch_iff, syncMatch_iff_fields, and_syncPattern_eq_iff, and_markerMask_eq_iff f (by omega),
      and_markerMask_eq_iff f (by omega), and_markerMask_eq_iff f (by omega), and_syncMask_eq_iff]
    rfl
  · rw [decodeFrame_eq_syncMatch_iff, syncMatch_iff_fields, frameByte_eq_iff f (by omega),
      frameByte_eq_iff f (by omega), frameByte_eq_iff f (by omega), syncWord_eq_iff, and_assoc, and_assoc]
    rfl
  · rw [ne_eq, decodeFrame_eq_syncMatch_iff, decodeFrame_eq_syncMiss_iff, Bool.not_eq_true]

/-- Settles O7: a USER operation is `userOp` of its number. -/
theorem protocolFollowsFlagAndNumber : Obligations.ProtocolFollowsFlagAndNumber := by
  unfold Obligations.ProtocolFollowsFlagAndNumber
  intro k len P
  exact ⟨protoStdnat_mem_decodePayload, userOp_mem_decodePayload 0, userOp_mem_decodePayload 1,
    userOp_mem_decodePayload 2, userOp_mem_decodePayload 3, userOp_mem_decodePayload 4, userOp_mem_decodePayload 5,
    userOp_mem_decodePayload 6, userOp_mem_decodePayload 7⟩

/-- Settles O2: each legal branch of the decoder reads a whole byte of the table. -/
theorem legalByteEncodesItsCommand : Obligations.LegalByteEncodesItsCommand := by
  unfold Obligations.LegalByteEncodesItsCommand
  intro c i
  exact encode_of_decodeCmd

/-- Settles O3: a byte in a row's range is the byte of the row's command, with the operand read off its low bits; every
other byte is no command's (`decodeCmd_illegal`). -/
theorem commandMapIsTheTable : Obligations.CommandMapIsTheTable := by
  unfold Obligations.CommandMapIsTheTable
  intro c
  refine ⟨fun h => ?_, fun hlo hhi => ?_, fun hlo hhi => ?_, fun hlo hhi => ?_, fun hlo hhi => ?_, fun h => ?_,
    fun h => ?_⟩
  · exact decodeCmd_of_codedNat rfl rfl rfl h.symm
  · refine decodeCmd_of_codedNat rfl rfl rfl ?_
    rw [codedNat_sym, Nat.toNat_testBit, Nat.toNat_testBit]
    omega
  · have hcode : (BitVec.ofNat 2 (c.toNat - 0x20)).toNat = c.toNat - 0x20 := by
      rw [BitVec.toNat_ofNat]; omega
    refine decodeCmd_of_codedNat (setdialect_wellFormed_iff.mpr ?_) rfl rfl ?_
    · omega
    · rw [codedNat_setdialect, hcode]
      omega
  · refine decodeCmd_of_codedNat rfl rfl rfl ?_
    rw [codedNat_setinv, Nat.toNat_testBit]
    omega
  · refine decodeCmd_of_codedNat rfl rfl rfl ?_
    rw [codedNat_ack, Nat.toNat_testBit, Nat.toNat_testBit, Nat.toNat_testBit]
    omega
  · exact decodeCmd_of_codedNat rfl rfl rfl h.symm
  · apply decodeCmd_illegal
    unfold IsCommandNumber
    omega

/-- Settles O4: the fields of each written word, by the rule that selects its operation. -/
theorem wordsOfTheSpecDecode : Obligations.WordsOfTheSpecDecode := by
  unfold Obligations.WordsOfTheSpecDecode
  refine ⟨rfl, rfl, rfl, rfl, rfl, rfl, rfl, rfl, rfl, rfl, rfl, rfl, rfl, ?_, ?_, ?_, ?_, ?_, ?_, ?_⟩
  · exact (decodeFrame_eq_syncMatch_iff _).mpr (by decide +kernel)
  · exact (decodeFrame_eq_syncMiss_iff _).mpr (by decide +kernel)
  · exact congrArg (fmtOp .k0) (classify_eq_housekeeping.mpr rfl)
  · exact congrArg (fmtOp .k0) (classify_eq_short.mpr ⟨by decide, rfl⟩)
  · exact congrArg (fmtOp .k0) (classify_eq_long.mpr ⟨by decide, by decide⟩)
  · exact protoOp_of_user (P := 0x401800000000000000000000000000#120) rfl
  · exact protoOp_of_standard rfl

end Sys2Proof
end

section
/-! SUPPORT. What SYM does to the registers at an even position, at an odd one and past the end of a block, each as one
equation (40_host_commands R131, R132; 41_manchester R155 to R159). -/
namespace Sys2Proof.Machine

/-! ## Positions in a block -/

/-- Bit 0 of SYMCNT is its parity (40_host_commands R131). -/
theorem Regs.symcnt_bit_zero (r : Regs) : r.symcnt.getLsbD 0 = decide (r.symcnt.toNat % 2 = 1) := by
  rw [Bool.eq_iff_iff, getLsbD_eq_true_iff, pow_zero, Nat.div_one, decide_eq_true_iff]

theorem Regs.symcnt_eq_zero_iff (r : Regs) : r.symcnt = 0 ↔ r.symcnt.toNat = 0 := BitVec.toNat_inj.symm

theorem Regs.symcnt_eq_last_iff (r : Regs) : r.symcnt = 1199 ↔ r.symcnt.toNat = 1199 := BitVec.toNat_inj.symm

theorem Regs.symcnt_eq_full_iff (r : Regs) : r.symcnt = 1200 ↔ r.symcnt.toNat = 1200 := BitVec.toNat_inj.symm

theorem Regs.symcnt_succ (r : Regs) : r.symcnt + 1 = BitVec.ofNat 11 (r.symcnt.toNat + 1) := by bv_omega

/-! ## A block's start -/

/-- Position 0 loads INV_ACT and clears VIOL_ACT; any other position leaves them (10_state R37, R38). -/
theorem startBlock_eq (r : Regs) :
    startBlock r =
      { r with
        invAct  := if r.symcnt.toNat = 0 then r.inv else r.invAct
        violAct := if r.symcnt.toNat = 0 then false else r.violAct } := by
  unfold startBlock
  by_cases h : r.symcnt.toNat = 0
  · rw [if_pos (r.symcnt_eq_zero_iff.mpr h), if_pos h, if_pos h]
  · rw [if_neg (mt r.symcnt_eq_zero_iff.mp h), if_neg h, if_neg h]

/-- Past position 0 no block starts. -/
theorem startBlock_of_ne_zero {r : Regs} (h : r.symcnt.toNat ≠ 0) : startBlock r = r := by
  rw [startBlock_eq, if_neg h, if_neg h]

/-! ## Taking a symbol -/

/-- WBUF after the pair of HOLD and `b`: its bit written when the two differ (41_manchester R155, R156). -/
def pairWbuf (b : Bool) (r : Regs) : FrameBits :=
  if r.hold = b then r.wbuf else memWrite r.wbuf (pairIndex r) (r.hold ^^ r.invAct)

theorem pairWbuf_getMsbD (b : Bool) {r : Regs} (h : r.symcnt.toNat < 1200) {j : Nat} (hj : j < 600) :
    (pairWbuf b r).getMsbD j =
      if r.hold ≠ b ∧ j = (r.symcnt.toNat - 1) / 2 then r.hold ^^ r.invAct else r.wbuf.getMsbD j := by
  have hidx : pairIndex r < 600 := by unfold pairIndex; omega
  unfold pairWbuf
  by_cases hb : r.hold = b
  · simp [hb]
  · rw [if_neg hb, memWrite_getMsbD _ _ hidx hj]
    exact if_congr (by simp [hb, pairIndex]) rfl rfl

/-- At an odd position below 1200 a pair decode writes WBUF or sets VIOL_ACT, and nothing else. -/
theorem pairDecode_odd (b : Bool) {r : Regs} (h : r.symcnt.toNat < 1200) (hodd : r.symcnt.toNat % 2 = 1) :
    pairDecode b r = { r with wbuf := pairWbuf b r, violAct := r.violAct || (r.hold == b) } := by
  have h0 : r.symcnt.getLsbD 0 = true := by rw [r.symcnt_bit_zero, hodd]; rfl
  rw [pairDecode_spec h0 h, pairWbuf]
  by_cases hb : r.hold = b <;> simp [hb]

theorem takeSymbol_even (b : Bool) {r : Regs} (heven : r.symcnt.toNat % 2 = 0) :
    takeSymbol b r = { r with hold := b } := by
  rw [takeSymbol, r.symcnt_bit_zero, heven]
  rfl

theorem takeSymbol_odd (b : Bool) {r : Regs} (hodd : r.symcnt.toNat % 2 = 1) : takeSymbol b r = pairDecode b r := by
  rw [takeSymbol, r.symcnt_bit_zero, hodd]
  rfl

/-- The symbol at an even position is held, after the block's start at position 0. -/
theorem takeSymbol_startBlock_even (b : Bool) {r : Regs} (heven : r.symcnt.toNat % 2 = 0) :
    takeSymbol b (startBlock r) =
      { r with
        hold    := b
        invAct  := if r.symcnt.toNat = 0 then r.inv else r.invAct
        violAct := if r.symcnt.toNat = 0 then false else r.violAct } := by
  rw [startBlock_eq]
  exact takeSymbol_even b heven

/-- The symbol at an odd position starts no block and completes a pair. -/
theorem takeSymbol_startBlock_odd (b : Bool) {r : Regs} (hodd : r.symcnt.toNat % 2 = 1) :
    takeSymbol b (startBlock r) = pairDecode b r := by
  rw [startBlock_of_ne_zero (by omega), takeSymbol_odd b hodd]

/-- INV_ACT changes at a block's start only (10_state R37). -/
theorem takeSymbol_invAct (b : Bool) (r : Regs) : (takeSymbol b r).invAct = r.invAct := by
  have legal (a : Bool) : (legalPair a r).invAct = r.invAct := by
    rcases legalPair_cases a r with ⟨-, h⟩ | ⟨-, h⟩ <;> rw [h]
  have violating (a : Bool) : (violatingPair a r).invAct = r.invAct := by
    rcases violatingPair_cases a r with ⟨-, h⟩ | ⟨-, h⟩ <;> rw [h]
  unfold takeSymbol
  split
  · unfold pairDecode
    split
    · exact legal false
    · exact legal true
    · exact violating false
    · exact violating true
  · rfl

/-! ## SYM -/

theorem exec_sym (l b : Bool) (s : State) :
    exec (.sym l b) s = .next (s.withRegs (symRegs s.pins.now l b s.regs)) := rfl

/-- Without `last` SYM takes its symbol and counts it, or drops it at 1200; `now` does not matter. -/
theorem symRegs_not_last (now : Timestamp) (b : Bool) (r : Regs) :
    symRegs now false b r =
      if r.symcnt = 1200 then r else { takeSymbol b (startBlock r) with symcnt := r.symcnt + 1 } := rfl

theorem symRegs_below (now : Timestamp) (b : Bool) {r : Regs} (h : r.symcnt.toNat < 1200) :
    symRegs now false b r =
      { takeSymbol b (startBlock r) with symcnt := BitVec.ofNat 11 (r.symcnt.toNat + 1) } := by
  rw [symRegs_not_last, if_neg (mt r.symcnt_eq_full_iff.mp (by omega)), r.symcnt_succ]

theorem symRegs_full (now : Timestamp) (b : Bool) {r : Regs} (h : r.symcnt.toNat = 1200) :
    symRegs now false b r = r := by
  rw [symRegs_not_last, if_pos (r.symcnt_eq_full_iff.mpr h)]

theorem symRegs_full_last (now : Timestamp) (b : Bool) {r : Regs} (h : r.symcnt.toNat = 1200) :
    symRegs now true b r = endBlockLength now r := by
  rw [symRegs, if_pos (r.symcnt_eq_full_iff.mpr h), if_pos rfl]

/-- SYM with `last` at 1199 judges the block after its last pair (41_manchester R158, R159). -/
theorem symRegs_good_last (now : Timestamp) (b : Bool) {r : Regs} (h : r.symcnt.toNat = 1199) :
    symRegs now true b r = endBlockGood now (pairDecode b r) := by
  have hcnt : r.symcnt = 1199 := r.symcnt_eq_last_iff.mpr h
  have hne : r.symcnt ≠ 1200 := mt r.symcnt_eq_full_iff.mp (by omega)
  simp only [symRegs, if_neg hne, if_true, if_pos hcnt, takeSymbol_startBlock_odd b (r := r) (by omega)]

/-- SYM without `last` at an even position, block start included. -/
theorem symRegs_even (now : Timestamp) (b : Bool) {r : Regs} (h : r.symcnt.toNat < 1200)
    (heven : r.symcnt.toNat % 2 = 0) :
    symRegs now false b r =
      { r with
        hold    := b
        symcnt  := BitVec.ofNat 11 (r.symcnt.toNat + 1)
        invAct  := if r.symcnt.toNat = 0 then r.inv else r.invAct
        violAct := if r.symcnt.toNat = 0 then false else r.violAct } := by
  rw [symRegs_below now b h, takeSymbol_startBlock_even b heven]

/-- SYM without `last` at an odd position. -/
theorem symRegs_odd (now : Timestamp) (b : Bool) {r : Regs} (h : r.symcnt.toNat < 1200)
    (hodd : r.symcnt.toNat % 2 = 1) :
    symRegs now false b r =
      { r with
        symcnt  := BitVec.ofNat 11 (r.symcnt.toNat + 1)
        wbuf    := pairWbuf b r
        violAct := r.violAct || (r.hold == b) } := by
  rw [symRegs_below now b h, takeSymbol_startBlock_odd b hodd, pairDecode_odd b h hodd]

/-- SYM without `last` loads INV_ACT at position 0 and leaves it elsewhere, an over-length symbol included. -/
theorem symRegs_invAct (now : Timestamp) (b : Bool) (r : Regs) :
    (symRegs now false b r).invAct = if r.symcnt.toNat = 0 then r.inv else r.invAct := by
  rw [symRegs_not_last]
  split
  next hfull => rw [if_neg (by simp [hfull])]
  next => rw [takeSymbol_invAct, startBlock_eq]

/-! ## The operations SYM selects -/

/-- The pair operation of HOLD and `b` does what SYM does with its symbol (30_encoding R101). -/
theorem exec_decodePair (s : State) (b : Bool) :
    exec (decodePair s.regs.hold b) s = .next (s.withRegs (pairDecode b s.regs)) := by
  unfold pairDecode
  cases s.regs.hold <;> cases b <;> rfl

/-- The sync operation of WBUF does what the commit does (30_encoding R102). -/
theorem exec_decodeFrame_regs (s : State) :
    Goes (exec (decodeFrame s.regs.wbuf) s) fun t => t.regs = syncCommit s.regs := by
  unfold decodeFrame syncCommit
  split
  · exact exec_syncMatch_regs s
  · exact exec_syncMiss_regs s

/-- At the end of a good block the commit records the pattern's verdict (42_frame_sync R172, R173). -/
theorem syncCommit_result {r : Regs} (hcnt : r.symcnt.toNat = 1199) (hviol : r.violAct = false) :
    (syncCommit r).result = syncResult r.wbuf := by
  have hready : commitReady r = true := by simp [commitReady, r.symcnt_eq_last_iff.mpr hcnt, hviol]
  cases hm : syncMatch r.wbuf <;> simp [syncCommit, syncMatchRegs, syncMissRegs, syncResult, hm, hready]

/-- A good block's end is its sync operation, then BlockEndCommon with the result that left (41_manchester R158). -/
theorem endBlockGood_of_legal (now : Timestamp) {r : Regs} (hcnt : r.symcnt.toNat = 1199) (hviol : r.violAct = false) :
    endBlockGood now r = blockEndCommon now (syncCommit r).result (syncCommit r) := by
  rw [syncCommit_result hcnt hviol, endBlockGood, if_neg (by simp [hviol])]

/-! ## The statements -/

/-- Settles O36: SYM at an odd position is `pairDecode` and a count, at the end of a good block `pairDecode`, then
`syncCommit` and BlockEndCommon; the selected operations run the same register functions. -/
theorem symPerformsTheSelectedOperations : Obligations.SymPerformsTheSelectedOperations := by
  unfold Obligations.SymPerformsTheSelectedOperations
  refine ⟨fun s b hlt hodd => ?_, fun s b hcnt hviol hne => ?_⟩
  · refine ⟨_, exec_decodePair s b, _, exec_sym false b s, ?_⟩
    beta_reduce
    rw [State.withRegs_regs, State.withRegs_regs, symRegs_below _ b hlt, takeSymbol_startBlock_odd b hodd]
  · have hpair := pairDecode_odd b (r := s.regs) (by omega) (by omega)
    obtain ⟨v, hv, hr⟩ := exec_decodeFrame_regs (s.withRegs (pairDecode b s.regs))
    refine ⟨_, exec_decodePair s b, v, hv, _, exec_sym true b s, ?_⟩
    beta_reduce
    rw [hr, State.withRegs_regs, State.withRegs_regs, symRegs_good_last _ b hcnt]
    exact endBlockGood_of_legal _ (by rw [hpair]; exact hcnt) (by rw [hpair]; simp [hviol, hne])

/-- Settles O22: the registers of `symRegs_odd`, whose WBUF has the one bit of the pair written (`pairWbuf_getMsbD`). -/
theorem symAtAnOddPositionCompletesAPair : Obligations.SymAtAnOddPositionCompletesAPair := by
  unfold Obligations.SymAtAnOddPositionCompletesAPair
  intro s b hlt hodd
  refine ⟨_, exec_sym false b s, ?_⟩
  rw [symRegs_odd _ b hlt hodd]
  exact ⟨rfl, fun j hj => pairWbuf_getMsbD b hlt hj⟩

/-- Settles O21: the registers of `symRegs_even`, all else kept. -/
theorem symAtAnEvenPositionIsHeld : Obligations.SymAtAnEvenPositionIsHeld := by
  unfold Obligations.SymAtAnEvenPositionIsHeld
  intro s b hlt heven
  rw [SetsRegs, exec_sym, symRegs_even _ b hlt heven, State.withRegs]

/-- Settles O23: at 1200 SYM takes no symbol (`symRegs_full`, `symRegs_full_last`). -/
theorem overlengthSymbolsAreDropped : Obligations.OverlengthSymbolsAreDropped := by
  unfold Obligations.OverlengthSymbolsAreDropped
  intro s b hfull
  constructor
  · rw [exec_sym, symRegs_full _ b hfull, State.withRegs_self]
  · rw [SetsRegs, exec_sym, symRegs_full_last _ b hfull]
    rfl

end Sys2Proof.Machine
end

section
/-! The step function assembled (40_host_commands R137 to R139), and the commands that only set a configuration field or
a flag (R130, R133 to R135). -/
namespace Sys2Proof.Machine

/-! ## Answers -/

/-- Two facts of one answer are facts of one next state. -/
theorem Goes.and {a : Answer} {p q : State → Prop} (hp : Goes a p) (hq : Goes a q) : Goes a fun t => p t ∧ q t := by
  obtain ⟨t, rfl, hp⟩ := hp
  obtain ⟨u, hu, hq⟩ := hq
  cases hu
  exact ⟨t, rfl, hp, hq⟩

theorem andThen_assoc (a : Answer) (f g : State → Answer) :
    andThen (andThen a f) g = andThen a fun t => andThen (f t) g := by
  cases a <;> rfl

/-! ## The host's side of a step -/

/-- `t` has the pins and the coming cycles of `s`. -/
def SameHost (s t : State) : Prop := t.pins = s.pins ∧ t.script = s.script

/-- No instruction touches the pins or the coming cycles (assumption 2). -/
theorem exec_sameHost (i : Instr) (s : State) : Goes (exec i s) (SameHost s) := by
  have lane (hi : i.format = .msg ∨ i.format = .payload) : Goes (exec i s) (SameHost s) := by
    obtain ⟨t, ht, -, hpins, hscript, -⟩ := (exec_changesALane s hi).frame
    exact ⟨t, ht, hpins, hscript⟩
  cases i with
  | nop | sym | setdialect | setinv | ack | srst | pair01 | pair10 | pair00 | pair11 => exact ⟨_, rfl, rfl, rfl⟩
  | syncMatch | syncMiss =>
    refine ⟨_, rfl, ?_⟩
    split <;> exact ⟨rfl, rfl⟩
  | bcnHdr | bcnCountry | bcnBch1 | bcnBch2 | bcnPos | protoStdnat | protoUser0 | protoUser1 | protoUser2 | protoUser3
  | protoUser4 | protoUser5 | protoUser6 | protoUser7 => exact lane (.inr rfl)
  | _ => exact lane (.inl rfl)

theorem command_sameHost (s : State) : Goes (command s) (SameHost s) := by
  unfold command
  split
  · exact ⟨_, rfl, rfl, rfl⟩
  · split
    · cases decodeCmd s.pins.cmd with
      | instr i => exact exec_sameHost i s
      | illegal why => exact ⟨_, rfl, rfl, rfl⟩
    · exact ⟨_, rfl, rfl, rfl⟩

/-- The host's next cycle comes to the pins, an idle one after the last (assumption 2). -/
theorem State.advance_host (s : State) :
    s.advance.pins = s.script.headD Pins.idle ∧ s.advance.script = s.script.tail := by
  cases h : s.script with
  | nil => exact State.advance_nil h
  | cons p ps => exact State.advance_cons h

theorem step_host (s : State) :
    Goes (step s) fun t => t.pins = s.script.headD Pins.idle ∧ t.script = s.script.tail := by
  obtain ⟨u, hu, -, hscript⟩ := command_sameHost s
  refine ⟨_, step_eq_of_command hu, ?_⟩
  rw [← hscript]
  exact State.advance_host _

/-! ## The cases of a cycle -/

theorem Pins.instr_of_decode {p : Pins} {i : Instr} (hrst : p.rst = false) (hvalid : p.cmdValid = true)
    (hd : decodeCmd p.cmd = .instr i) : p.instr = some i := by
  simp [Pins.instr, hrst, hvalid, hd]

theorem Pins.regsAfter_of_no_command {p : Pins} (hrst : p.rst = false) (hvalid : p.cmdValid = false) (r : Regs) :
    p.regsAfter r = r := by
  simp [Pins.regsAfter, hrst, hvalid]

theorem Pins.regsAfter_of_illegal {p : Pins} {why : CmdReject} (hrst : p.rst = false) (hvalid : p.cmdValid = true)
    (hd : decodeCmd p.cmd = .illegal why) (r : Regs) : p.regsAfter r = illegalCommand r := by
  simp [Pins.regsAfter, hrst, hvalid, hd]

/-- Only a SYM that ends a block reads `now` (40_host_commands R139). -/
theorem regsAfter_now_irrelevant {i : Instr} (h : ∀ b, i ≠ .sym true b) (now now' : Timestamp) (r : Regs) :
    regsAfter now r i = regsAfter now' r i := by
  cases i with
  | sym l b =>
    cases l with
    | false => rfl
    | true => exact absurd rfl (h b)
  | _ => rfl

theorem Pins.regsAfter_now_irrelevant {p : Pins} (h : ∀ b, p.instr ≠ some (.sym true b)) (n : Timestamp) (r : Regs) :
    Pins.regsAfter { p with now := n } r = p.regsAfter r := by
  cases hrst : p.rst with
  | true => simp [Pins.regsAfter, hrst]
  | false =>
    cases hvalid : p.cmdValid with
    | false => simp [Pins.regsAfter, hrst, hvalid]
    | true =>
      cases hd : decodeCmd p.cmd with
      | illegal why => simp [Pins.regsAfter, hrst, hvalid, hd]
      | instr i =>
        have hi : ∀ b, i ≠ .sym true b := fun b hb => h b (hb ▸ Pins.instr_of_decode hrst hvalid hd)
        simpa [Pins.regsAfter, hrst, hvalid, hd] using Machine.regsAfter_now_irrelevant hi n p.now r

/-! ## The operations of a lane -/

/-- A lane's operations are those its message selects and, with a payload, those the payload selects
(43_message_fields R180, 44_beacon_payload R230). -/
theorem Regs.mem_laneOps {r : Regs} {k : Lane} {i : Instr} : i ∈ r.laneOps k ↔
    r.result = .syncOk ∧ (i ∈ decodeMsg k r.dialect (r.msg k) ∨
      ∃ p, r.payload k = some p ∧ i ∈ decodePayload k p.1 p.2) := by
  rw [← r.frameValid_iff, Regs.laneOps]
  cases r.frameValid <;> cases r.payload k <;> simp

/-! ## Commands that set a field or a flag -/

theorem setdialectRegs_code (d : Dialect) (r : Regs) : setdialectRegs d.code r = { r with dialect := d } := by
  rw [setdialectRegs, Dialect.ofCode_code]

theorem setdialectRegs_reserved (r : Regs) : setdialectRegs 3#2 r = illegalCommand r := rfl

theorem Dialect.ofNat_dialectNat (d : Dialect) : BitVec.ofNat 2 (dialectNat d) = d.code := by
  rw [← Dialect.code_toNat, BitVec.ofNat_toNat, BitVec.setWidth_eq]

theorem ackedFlag_eq (mask flag : Bool) : ackedFlag mask flag = (flag && !mask) := by
  cases mask <;> simp [ackedFlag]

/-- INV_ACT after SETINV and a symbol: the new CFG.INV exactly when the symbol starts a block
(40_host_commands R134). -/
theorem runOps_setinv_sym (v b : Bool) (s : State) :
    Goes (runOps [.setinv v, .sym false b] s) fun t =>
      t.regs.invAct = if s.regs.symcnt.toNat = 0 then v else s.regs.invAct :=
  ⟨_, rfl, symRegs_invAct _ b { s.regs with inv := v }⟩

/-! ## The statements -/

/-- Settles O9: the registers after a step are those its pins make (`step_regs`), case by case of the pins. -/
theorem stepFunctionAssembled : Obligations.StepFunctionAssembled := by
  unfold Obligations.StepFunctionAssembled
  intro s
  obtain ⟨t, ht, ⟨hregs, -⟩, hhost⟩ := (step_regs s).and (step_host s)
  refine ⟨t, ht, hhost, fun hrst => ?_, fun hrst hvalid => ?_, fun i hrst hvalid hd => ?_,
    fun why hrst hvalid hd => ?_, fun n hlast => ?_⟩
  · rw [hregs, Pins.regsAfter_of_resets (by simp [Pins.resets, hrst])]
    exact allZero_reset
  · rw [hregs, Pins.regsAfter_of_no_command hrst hvalid]
  · obtain ⟨u, hu, hr⟩ := exec_regs i s
    have hinstr := Pins.regsAfter_of_instr (Pins.instr_of_decode hrst hvalid hd) s.regs
    exact ⟨u, hu, hregs.trans (hinstr.trans hr.symm)⟩
  · rw [hregs, Pins.regsAfter_of_illegal hrst hvalid hd, illegalCommand]
  · obtain ⟨u, hu, hr, -⟩ := step_regs { s with pins := { s.pins with now := n } }
    exact ⟨u, hu, hr.trans ((Pins.regsAfter_now_irrelevant hlast n s.regs).trans hregs.symm)⟩

/-- Settles O8: the command of the cycle is the decoded instruction, and `Regs.mem_laneOps`. -/
theorem stepRunsTheDecodedCommand : Obligations.StepRunsTheDecodedCommand := by
  unfold Obligations.StepRunsTheDecodedCommand
  refine ⟨fun s i hrst hvalid hd => ?_, fun s => rfl, fun r k i => Regs.mem_laneOps⟩
  have hcmd : command s = exec i s := by simp [command, hrst, hvalid, hd]
  rw [step, cycle, hcmd, andThen_assoc]

/-- Settles O20: NOP is the identity, and neither it nor an idle cycle changes the registers. -/
theorem nopChangesNothing : Obligations.NopChangesNothing := by
  unfold Obligations.NopChangesNothing
  refine ⟨fun s => rfl, fun s hrst h => ?_⟩
  obtain ⟨t, ht, hregs, -⟩ := step_regs s
  refine ⟨t, ht, ?_⟩
  beta_reduce
  rw [hregs]
  cases hvalid : s.pins.cmdValid with
  | false => exact Pins.regsAfter_of_no_command hrst hvalid _
  | true =>
    have hcmd : s.pins.cmd = 0x00#8 := h.resolve_left (by simp [hvalid])
    have hnop : decodeCmd s.pins.cmd = .instr .nop := by rw [hcmd]; rfl
    exact Pins.regsAfter_of_instr (Pins.instr_of_decode hrst hvalid hnop) _

/-- Settles O27: the three codes are those of the dialects, and code 3 is none. -/
theorem setdialectSetsTheDialectOnly : Obligations.SetdialectSetsTheDialectOnly := by
  unfold Obligations.SetdialectSetsTheDialectOnly
  refine ⟨fun s d => ?_, fun s => ?_⟩
  · rw [SetsRegs, Dialect.ofNat_dialectNat, ← setdialectRegs_code]
    rfl
  · exact congrArg (fun r => Host.Outcome.next (s.withRegs r)) (setdialectRegs_reserved s.regs)

/-- Settles O28: SETINV writes CFG.INV, which the next symbol reads at position 0 only (`runOps_setinv_sym`). -/
theorem setinvSetsInvOnly : Obligations.SetinvSetsInvOnly := by
  unfold Obligations.SetinvSetsInvOnly
  refine ⟨fun s v => rfl, fun s v b hzero => ?_, fun s v b hpos _ => ?_⟩
  · obtain ⟨t, ht, hinv⟩ := runOps_setinv_sym v b s
    exact ⟨t, ht, hinv.trans (if_pos hzero)⟩
  · obtain ⟨t, ht, hinv⟩ := runOps_setinv_sym v b s
    exact ⟨t, ht, hinv.trans (if_neg hpos.ne')⟩

/-- Settles O29: each flag by `ackedFlag_eq`. -/
theorem ackClearsTheMaskedFlags : Obligations.AckClearsTheMaskedFlags := by
  unfold Obligations.AckClearsTheMaskedFlags
  intro s c b a
  rw [SetsRegs, ← ackedFlag_eq, ← ackedFlag_eq, ← ackedFlag_eq]
  rfl

end Sys2Proof.Machine
end

section
/-! What SYM with `last` does to the registers, whatever the count: BlockEndCommon (41_manchester R162), LENGTH_ERROR at a
wrong count (R161), the judgement of a full block (R158, R159); and the pair operations run alone (R153 to R157). -/
namespace Sys2Proof.Machine

/-! ## What every block end records -/

/-- `r'` are the registers `r` after a block end at the time `now`, as far as no block's content enters
(41_manchester R162). -/
structure BlockEnded (now : Timestamp) (r r' : Regs) : Prop where
  ovr      : r'.ovr = (r.ovr || r.newFlag)
  newFlag  : r'.newFlag = true
  recorded : r'.result ≠ .none
  tstamp   : r'.tstamp = now
  symcnt   : r'.symcnt = 0
  dialect  : r'.dialect = r.dialect
  inv      : r'.inv = r.inv
  cmderr   : r'.cmderr = r.cmderr

theorem syncResult_ne_none (f : FrameBits) : syncResult f ≠ .none := by
  rcases syncResult_cases f with h | h <;> simp [h]

theorem endBlockLength_blockEnded (now : Timestamp) (r : Regs) : BlockEnded now r (endBlockLength now r) := by
  constructor <;> simp [endBlockLength]

theorem endBlockGood_blockEnded (now : Timestamp) {r : Regs} (h : r.symcnt = 1199) :
    BlockEnded now r (endBlockGood now r) := by
  rcases endBlockGood_cases now r h with ⟨-, h⟩ | ⟨-, h⟩ <;> rw [h] <;> constructor <;> simp [syncResult_ne_none]

/-- What a block end records does not depend on the line decoder's work. -/
theorem BlockEnded.of_lineOnly {now : Timestamp} {r r' r'' : Regs} (hline : LineOnly r r')
    (h : BlockEnded now r' r'') : BlockEnded now r r'' := by
  obtain ⟨_, _, _, _, rfl⟩ := hline
  exact { h with }

theorem LineOnly.symcnt {r r' : Regs} (h : LineOnly r r') : r'.symcnt = r.symcnt := by
  obtain ⟨_, _, _, _, rfl⟩ := h
  rfl

/-- Every SYM with `last` ends a block, whatever the count. -/
theorem symRegs_last_blockEnded (now : Timestamp) (b : Bool) (r : Regs) : BlockEnded now r (symRegs now true b r) := by
  rcases symRegs_cases now true b r with ⟨hl, -⟩ | ⟨r', hline, ⟨hl, -⟩ | ⟨-, hlast, h⟩ | ⟨-, -, h⟩⟩
  · cases hl
  · cases hl
  · rw [h]
    exact (endBlockGood_blockEnded now (hline.symcnt.trans hlast)).of_lineOnly hline
  · rw [h]
    exact (endBlockLength_blockEnded now r').of_lineOnly hline

/-! ## A block of the wrong length -/

/-- SYM with `last` at a count other than 1199: its symbol acts as at any SYM, a full count drops it, and the block ends
with LENGTH_ERROR (41_manchester R161, 40_host_commands R132). -/
theorem symRegs_wrong_last (now : Timestamp) (b : Bool) {r : Regs} (hle : r.symcnt.toNat ≤ 1200)
    (hne : r.symcnt.toNat ≠ 1199) :
    symRegs now true b r =
      endBlockLength now
        { r with
          hold    := if r.symcnt.toNat % 2 = 0 ∧ r.symcnt.toNat < 1200 then b else r.hold
          invAct  := if r.symcnt.toNat = 0 then r.inv else r.invAct
          violAct := if r.symcnt.toNat = 0 then false
            else r.violAct || (decide (r.symcnt.toNat % 2 = 1) && r.hold == b)
          wbuf    := if r.symcnt.toNat % 2 = 1 then pairWbuf b r else r.wbuf } := by
  by_cases hfull : r.symcnt.toNat = 1200
  · rw [symRegs_full_last now b hfull]
    simp [hfull]
  · have htake : symRegs now true b r = endBlockLength now (takeSymbol b (startBlock r)) := by
      simp only [symRegs, r.symcnt_eq_full_iff, r.symcnt_eq_last_iff, hfull, hne, if_false, if_true]
    rw [htake]
    rcases Nat.mod_two_eq_zero_or_one r.symcnt.toNat with heven | hodd
    · rw [takeSymbol_startBlock_even b heven]
      simp [heven, (show r.symcnt.toNat < 1200 by omega)]
    · rw [takeSymbol_startBlock_odd b hodd, pairDecode_odd b (by omega) hodd]
      simp [hodd, (show r.symcnt.toNat ≠ 0 by omega)]

/-! ## A full block -/

/-- The six bytes of a committed frame match exactly when its bits do (42_frame_sync R171). -/
theorem patternAt_ofBits_iff (f : FrameBits) : PatternAt (Memory.ofBits f).get ↔ syncMatch f = true := by
  have hbyte (i : Nat) (hi : i < 75) (b : Byte) : (Memory.ofBits f).get i = b ↔ byteNat f i = b.toNat := by
    rw [Memory.get_ofBits f hi, frameByte_eq_iff f hi]
  rw [← decodeFrame_eq_syncMatch_iff, (syncPatternTestsSixBytes f).2.1, PatternAt, hbyte 0 (by omega),
    hbyte 24 (by omega), hbyte 48 (by omega), hbyte 72 (by omega), hbyte 73 (by omega), hbyte 74 (by omega)]
  rfl

/-- SYM with `last` at 1199, after pair 599: a violation clears the frame, otherwise WBUF is committed and judged
(41_manchester R158, R159). -/
theorem symRegs_good_last_cases (now : Timestamp) (b : Bool) {r : Regs} (h : r.symcnt.toNat = 1199) :
    ((r.violAct = true ∨ r.hold = b) ∧
      symRegs now true b r = blockEndCommon now .lineViolation
        { r with wbuf := pairWbuf b r, violAct := r.violAct || (r.hold == b), frame := [] }) ∨
    (¬ (r.violAct = true ∨ r.hold = b) ∧
      symRegs now true b r = blockEndCommon now (syncResult (pairWbuf b r))
        { r with
          wbuf    := pairWbuf b r
          violAct := r.violAct || (r.hold == b)
          frame   := Memory.ofBits (pairWbuf b r) }) := by
  have hpair := pairDecode_odd b (r := r) (by omega) (by omega)
  have hviol : (pairDecode b r).violAct = true ↔ r.violAct = true ∨ r.hold = b := by simp [hpair]
  have hcnt : (pairDecode b r).symcnt = 1199 := (pairDecode_lineOnly b r).symcnt.trans (r.symcnt_eq_last_iff.mpr h)
  rw [symRegs_good_last now b h, ← hviol, Bool.not_eq_true]
  rcases endBlockGood_cases now _ hcnt with ⟨hv, hend⟩ | ⟨hv, hend⟩
  · exact .inl ⟨hv, by rw [hend, hpair]⟩
  · exact .inr ⟨hv, by rw [hend, hpair]⟩

/-! ## The pair operations -/

/-- The operation of a pair of unequal symbols writes the pair's bit (41_manchester R153, R154). -/
theorem exec_legalPair (s : State) (b : Bool) (hlt : s.regs.symcnt.toNat < 1200) (hodd : s.regs.symcnt.toNat % 2 = 1)
    (hne : s.regs.hold ≠ b) :
    SetsRegs (exec (decodePair s.regs.hold b) s) s { s.regs with wbuf := pairWbuf b s.regs } := by
  rw [SetsRegs, exec_decodePair, pairDecode_odd b hlt hodd, beq_false_of_ne hne, Bool.or_false]
  rfl

/-- The operation of a pair of equal symbols sets VIOL_ACT (41_manchester R156, R157). -/
theorem exec_violatingPair (s : State) (hlt : s.regs.symcnt.toNat < 1200) (hodd : s.regs.symcnt.toNat % 2 = 1) :
    SetsRegs (exec (decodePair s.regs.hold s.regs.hold) s) s { s.regs with violAct := true } := by
  rw [SetsRegs, exec_decodePair, pairDecode_odd _ hlt hodd, beq_self_eq_true, Bool.or_true, pairWbuf, if_pos rfl]
  rfl

/-! ## The statements -/

/-- Settles O24: the registers of `symRegs_wrong_last`. -/
theorem wrongLengthIsALengthError : Obligations.WrongLengthIsALengthError := by
  unfold Obligations.WrongLengthIsALengthError
  intro s b hle hne
  refine ⟨_, exec_sym true b s, ?_⟩
  rw [symRegs_wrong_last _ b hle hne]
  refine ⟨rfl, fun a => rfl, rfl, rfl, rfl, fun j hj => ?_⟩
  change (if s.regs.symcnt.toNat % 2 = 1 then pairWbuf b s.regs else s.regs.wbuf).getMsbD j = _
  by_cases hodd : s.regs.symcnt.toNat % 2 = 1
  · rw [if_pos hodd, pairWbuf_getMsbD b (by omega) hj]
    simp only [hodd, true_and]
  · simp only [hodd, false_and, if_false]

/-- Settles O25: the two ends of `symRegs_good_last_cases`; a committed frame spells WBUF (`Memory.fb_ofBits`) and its
six bytes decide RESULT (`patternAt_ofBits_iff`). -/
theorem fullBlockIsCommittedOrCleared : Obligations.FullBlockIsCommittedOrCleared := by
  unfold Obligations.FullBlockIsCommittedOrCleared
  intro s b h
  have hwbuf (j : Nat) (hj : j < 600) : (pairWbuf b s.regs).getMsbD j =
      if s.regs.hold ≠ b ∧ j = 599 then s.regs.hold ^^ s.regs.invAct else s.regs.wbuf.getMsbD j := by
    rw [pairWbuf_getMsbD b (by omega) hj, h]
  refine ⟨_, exec_sym true b s, ?_⟩
  rcases symRegs_good_last_cases s.pins.now b h with ⟨hviol, hr⟩ | ⟨hviol, hr⟩ <;> rw [hr]
  · refine ⟨rfl, hwbuf, ?_⟩
    rw [if_pos hviol]
    exact ⟨rfl, fun a => rfl⟩
  · refine ⟨by simp only [State.withRegs, blockEndCommon, ovrAfterBlockEnd], hwbuf, ?_⟩
    rw [if_neg hviol]
    simp only [State.withRegs_regs, blockEndCommon_frame, blockEndCommon_wbuf, blockEndCommon_result,
      patternAt_ofBits_iff, syncResult_eq_syncOk, syncResult_eq_syncFail, Bool.not_eq_true]
    refine ⟨fun j hj => ?_, id, id⟩
    rw [frameBit, blockEndCommon_frame, ← Memory.fb_getMsbD _ hj, Memory.fb_ofBits]

/-- Settles O34: PAIR.01 and PAIR.10 are the operations of HOLD and its complement (`exec_legalPair`). -/
theorem legalPairWritesItsBit : Obligations.LegalPairWritesItsBit := by
  unfold Obligations.LegalPairWritesItsBit
  intro s hlt hodd
  have legal (b : Bool) (hne : s.regs.hold ≠ b) : Goes (exec (decodePair s.regs.hold b) s) fun t =>
      t = { s with regs := { s.regs with wbuf := t.regs.wbuf } } ∧
      ∀ j, j < 600 → t.regs.wbuf.getMsbD j =
        if j = (s.regs.symcnt.toNat - 1) / 2 then s.regs.hold ^^ s.regs.invAct else s.regs.wbuf.getMsbD j := by
    refine ⟨_, exec_legalPair s b hlt hodd hne, rfl, fun j hj => ?_⟩
    rw [pairWbuf_getMsbD b hlt hj]
    simp only [hne, ne_eq, not_false_eq_true, true_and]
  constructor <;> intro hhold
  · simpa [hhold, decodePair] using legal true (by simp [hhold])
  · simpa [hhold, decodePair] using legal false (by simp [hhold])

/-- Settles O26: `symRegs_last_blockEnded`. -/
theorem everyBlockEndRecordsItsOutcome : Obligations.EveryBlockEndRecordsItsOutcome := by
  unfold Obligations.EveryBlockEndRecordsItsOutcome
  refine ⟨fun now res r => rfl, fun s b _ => ?_⟩
  obtain ⟨hovr, hnew, hrecorded, htstamp, hcnt, hdialect, hinv, hcmderr⟩ :=
    symRegs_last_blockEnded s.pins.now b s.regs
  exact ⟨_, exec_sym true b s, hovr, hnew, hrecorded, htstamp, hcnt, hdialect, hinv, hcmderr⟩

/-- Settles O35: PAIR.00 and PAIR.11 are the operations of HOLD and the same symbol (`exec_violatingPair`). -/
theorem violatingPairSetsViolAct : Obligations.ViolatingPairSetsViolAct := by
  unfold Obligations.ViolatingPairSetsViolAct
  intro s hlt hodd
  have violating := exec_violatingPair s hlt hodd
  constructor <;> intro hhold <;> rw [hhold] at violating <;> exact violating

end Sys2Proof.Machine
end

section
/-! The block function by itself: ManchesterDecode and ManchesterEncode (41_manchester R151, R163), and what a pair added
to a sequence adds to its decode. -/
namespace Sys2Proof.Machine

/-! ## Encoding and decoding -/

theorem manchesterDecode_pair (inv a b : Bool) (ss : List Bool) :
    manchesterDecode inv (a :: b :: ss) =
      if a = b then none else (manchesterDecode inv ss).map fun d => (a ^^ inv) :: d := rfl

theorem manchesterDecode_encode (inv : Bool) (d : List Bool) :
    manchesterDecode inv (manchesterEncode inv d) = some d := by
  induction d with
  | nil => rfl
  | cons x d ih =>
    have hne : (x ^^ inv) ≠ !(x ^^ inv) := (Bool.not_ne_self _).symm
    rw [manchesterEncode, manchesterDecode_pair, if_neg hne, ih]
    simp

theorem manchesterEncode_of_decode {inv : Bool} {ss d : List Bool} (h : manchesterDecode inv ss = some d) :
    manchesterEncode inv d = ss := by
  induction ss using manchesterDecode.induct generalizing d with
  | case1 =>
    cases h
    rfl
  | case2 a => cases h
  | case3 b ss =>
    rw [manchesterDecode_pair, if_pos rfl] at h
    cases h
  | case4 a b ss hne ih =>
    rw [manchesterDecode_pair, if_neg hne] at h
    obtain ⟨d', hd', rfl⟩ := Option.map_eq_some_iff.mp h
    have hb : b = !a := (Bool.not_eq.mpr hne).symm
    simp [manchesterEncode, ih hd', hb]

/-- The other inversion gives the complement, and a violation still. -/
theorem manchesterDecode_true (ss : List Bool) :
    manchesterDecode true ss = (manchesterDecode false ss).map (List.map not) := by
  induction ss using manchesterDecode.induct with
  | case1 | case2 => rfl
  | case3 b ss => simp [manchesterDecode_pair]
  | case4 a b ss hne ih => simp [manchesterDecode_pair, hne, ih, Function.comp_def]

/-- The inverted sequence gives the complement, and a violation still. -/
theorem manchesterDecode_map_not (inv : Bool) (ss : List Bool) :
    manchesterDecode inv (ss.map not) = (manchesterDecode inv ss).map (List.map not) := by
  induction ss using manchesterDecode.induct with
  | case1 | case2 => rfl
  | case3 b ss => simp [manchesterDecode_pair]
  | case4 a b ss hne ih => simp [manchesterDecode_pair, hne, ih, Function.comp_def]

/-! ## Violations -/

/-- Some pair of the sequence has two equal symbols (41_manchester R151). -/
def HasEqualPair (ss : List Bool) : Prop := ∃ j, 2 * j + 1 < ss.length ∧ ss[2 * j]? = ss[2 * j + 1]?

theorem hasEqualPair_cons_cons (a b : Bool) (ss : List Bool) :
    HasEqualPair (a :: b :: ss) ↔ a = b ∨ HasEqualPair ss := by
  constructor
  · rintro ⟨j, hlt, heq⟩
    cases j with
    | zero => exact .inl (by simpa using heq)
    | succ j =>
      rw [List.length_cons, List.length_cons] at hlt
      exact .inr ⟨j, by omega, by simpa [Nat.mul_succ] using heq⟩
  · rintro (rfl | ⟨j, hlt, heq⟩)
    · exact ⟨0, by simp, rfl⟩
    · exact ⟨j + 1, by rw [List.length_cons, List.length_cons]; omega, by simpa [Nat.mul_succ] using heq⟩

theorem manchesterDecode_eq_none_iff (inv : Bool) {ss : List Bool} (heven : ss.length % 2 = 0) :
    manchesterDecode inv ss = none ↔ HasEqualPair ss := by
  induction ss using manchesterDecode.induct with
  | case1 => simp [manchesterDecode, HasEqualPair]
  | case2 a => cases heven
  | case3 b ss => simp [manchesterDecode_pair, hasEqualPair_cons_cons]
  | case4 a b ss hne ih =>
    have heven' : ss.length % 2 = 0 := by rw [← heven, List.length_cons, List.length_cons]; omega
    simp [manchesterDecode_pair, hasEqualPair_cons_cons, hne, ih heven']

/-! ## A pair at the end -/

theorem manchesterDecode_append_pair (inv a b : Bool) {ss : List Bool} (heven : ss.length % 2 = 0) :
    manchesterDecode inv (ss ++ [a, b]) =
      if a = b then none else (manchesterDecode inv ss).map fun d => d ++ [a ^^ inv] := by
  induction ss using manchesterDecode.induct with
  | case1 => rfl
  | case2 c => cases heven
  | case3 c ss => simp [manchesterDecode_pair]
  | case4 c c' ss hne ih =>
    have heven' : ss.length % 2 = 0 := by rw [← heven, List.length_cons, List.length_cons]; omega
    simp only [List.cons_append, manchesterDecode_pair, if_neg hne, ih heven']
    split <;> simp [Function.comp_def]

/-! ## The statement -/

/-- Settles O33: each clause by induction on the pairs of the sequence. -/
theorem manchesterCodeIsInvertible : Obligations.ManchesterCodeIsInvertible := by
  unfold Obligations.ManchesterCodeIsInvertible
  refine ⟨manchesterDecode_encode, fun inv ss d => manchesterEncode_of_decode, manchesterDecode_true,
    fun inv ss d h => ?_, fun inv ss => manchesterDecode_eq_none_iff inv⟩
  rw [manchesterDecode_map_not, h, Option.map_some]

end Sys2Proof.Machine
end

section
/-! SUPPORT. The serial decoder against the block function (41_manchester R152, R160): what the registers hold while a block
is being received, that each symbol keeps it, and that the last one records the block's outcome. -/
namespace Sys2Proof.Machine

/-! ## The bits WBUF holds -/

/-- The first n bits of WBUF. -/
def wbufBits (r : Regs) (n : Nat) : List Bool := (List.range n).map r.wbuf.getMsbD

/-- The 600 bits of WBUF spell it. -/
theorem frameOfBits_wbufBits (r : Regs) : frameOfBits (wbufBits r 600) = r.wbuf := by
  rw [frameOfBits, wbufBits, List.foldl_map, ← toNat_eq_foldl, BitVec.ofNat_toNat, BitVec.setWidth_eq]

/-- A pair of unequal symbols appends its bit to those written. -/
theorem wbufBits_pairDecode {b : Bool} {r : Regs} {n : Nat} (hcnt : r.symcnt.toNat = 2 * n + 1) (hn : n < 600)
    (hne : r.hold ≠ b) : wbufBits (pairDecode b r) (n + 1) = wbufBits r n ++ [r.hold ^^ r.invAct] := by
  have hbit (j : Nat) (hj : j < 600) : (pairDecode b r).wbuf.getMsbD j =
      if r.hold ≠ b ∧ j = n then r.hold ^^ r.invAct else r.wbuf.getMsbD j := by
    rw [pairDecode_odd b (by omega) (by omega), pairWbuf_getMsbD b (by omega) hj,
      show (r.symcnt.toNat - 1) / 2 = n by omega]
  rw [wbufBits, List.range_succ, List.map_append, List.map_singleton, hbit n hn, if_pos ⟨hne, rfl⟩, wbufBits]
  congr 1
  refine List.map_congr_left fun j hj => ?_
  have hjn : j < n := List.mem_range.mp hj
  rw [hbit j (by omega), if_neg (by omega)]

/-! ## What is held of the symbols received -/

/-- The registers hold the decode, under the inversion `v`, of the whole pairs `ss`: VIOL_ACT is set when there is none,
and otherwise WBUF begins with it (10_state R33, R38; 41_manchester R151, R155). -/
structure PairsDecoded (v : Bool) (ss : List Bool) (r : Regs) : Prop where
  even   : ss.length % 2 = 0
  invAct : r.invAct = v
  decode : manchesterDecode v ss = if r.violAct then none else some (wbufBits r (ss.length / 2))

/-- The symbols `ss` as the registers hold them: decoded pairs, and behind them at most one symbol in HOLD
(10_state R36). -/
inductive LineDecoded (v : Bool) : List Bool → Regs → Prop
  | pairs {ss : List Bool} {r : Regs} : PairsDecoded v ss r → LineDecoded v ss r
  | held {ss : List Bool} {r : Regs} : PairsDecoded v ss r → LineDecoded v (ss ++ [r.hold]) r

/-- What is held of the symbols does not depend on their count. -/
theorem LineDecoded.withSymcnt {v : Bool} {ss : List Bool} {r : Regs} (h : LineDecoded v ss r) (n : BitVec 11) :
    LineDecoded v ss { r with symcnt := n } := by
  cases h with
  | pairs h => exact .pairs ⟨h.even, h.invAct, h.decode⟩
  | held h => exact .held (r := { r with symcnt := n }) ⟨h.even, h.invAct, h.decode⟩

theorem PairsDecoded.nil {r : Regs} (hviol : r.violAct = false) : PairsDecoded r.invAct [] r where
  even := rfl
  invAct := rfl
  decode := by rw [hviol]; rfl

/-- A symbol at an odd position completes a pair. -/
theorem PairsDecoded.append_pair {v b : Bool} {ss : List Bool} {r : Regs} (h : PairsDecoded v ss r)
    (hcnt : r.symcnt.toNat = ss.length + 1) (hlt : ss.length + 1 < 1200) :
    PairsDecoded v (ss ++ [r.hold, b]) (pairDecode b r) := by
  obtain ⟨heven, hinv, hdecode⟩ := h
  have hpair := pairDecode_odd b (r := r) (by omega) (by omega)
  have hlen : (ss ++ [r.hold, b]).length = ss.length + 2 := by simp
  refine ⟨by omega, by rw [hpair, hinv], ?_⟩
  rw [manchesterDecode_append_pair v r.hold b heven, hdecode, hlen, Nat.add_div_right _ (by omega)]
  by_cases hb : r.hold = b
  · simp [hpair, hb]
  · rw [if_neg hb, wbufBits_pairDecode (by omega) (by omega) hb, hinv, hpair]
    cases r.violAct <;> simp [hb]

/-- Taking a symbol adds it to those held. -/
theorem LineDecoded.append_symbol {v b : Bool} {ss : List Bool} {r : Regs} (h : LineDecoded v ss r)
    (hcnt : r.symcnt.toNat = ss.length) (hlt : ss.length < 1200) : LineDecoded v (ss ++ [b]) (takeSymbol b r) := by
  cases h with
  | pairs h =>
    rw [takeSymbol_even b (by rw [hcnt, h.even])]
    exact .held (r := { r with hold := b }) ⟨h.even, h.invAct, h.decode⟩
  | @held ss _ h =>
    have heven := h.even
    rw [List.length_append, List.length_singleton] at hcnt hlt
    rw [takeSymbol_odd b (by omega), List.append_assoc]
    exact .pairs (h.append_pair hcnt hlt)

/-- Whole pairs leave no symbol in HOLD. -/
theorem LineDecoded.pairsDecoded {v : Bool} {ss : List Bool} {r : Regs} (h : LineDecoded v ss r)
    (heven : ss.length % 2 = 0) : PairsDecoded v ss r := by
  cases h with
  | pairs h => exact h
  | @held ss _ h =>
    have hpairs := h.even
    rw [List.length_append, List.length_singleton] at heven
    omega

/-! ## The symbols of an open block -/

/-- The symbols `ss` of a block have been received, none of them the last, under the inversion `v`. Past 1200 the count
stays and nothing more is taken; before the first symbol `v` is what CFG.INV would load (40_host_commands R131, R132). -/
structure BlockOpen (v : Bool) (ss : List Bool) (r : Regs) : Prop where
  count   : r.symcnt.toNat = min ss.length 1200
  decoded : ss.length < 1200 → LineDecoded v ss (startBlock r)

theorem startBlock_symcnt (r : Regs) : (startBlock r).symcnt = r.symcnt := (startBlock_lineOnly r).symcnt

/-- Between two blocks nothing of the next one is held. -/
theorem BlockOpen.nil {r : Regs} (h : r.symcnt.toNat = 0) : BlockOpen r.inv [] r where
  count := h
  decoded _ := by
    have hinv : (startBlock r).invAct = r.inv := by rw [startBlock_eq, if_pos h]
    have hviol : (startBlock r).violAct = false := by rw [startBlock_eq, if_pos h, if_pos h]
    exact hinv ▸ .pairs (.nil hviol)

/-- A symbol below 1200 is taken at the end of those held. -/
theorem BlockOpen.takes_symbol {v : Bool} {ss : List Bool} {r : Regs} (b : Bool) (h : BlockOpen v ss r)
    (hlt : ss.length < 1200) : LineDecoded v (ss ++ [b]) (takeSymbol b (startBlock r)) := by
  have hcnt : (startBlock r).symcnt.toNat = ss.length := by
    rw [startBlock_symcnt, h.count, min_eq_left hlt.le]
  exact (h.decoded hlt).append_symbol hcnt hlt

/-- A symbol that is not the last leaves the block open. -/
theorem BlockOpen.append_symbol {v : Bool} {ss : List Bool} {r : Regs} (now : Timestamp) (b : Bool)
    (h : BlockOpen v ss r) : BlockOpen v (ss ++ [b]) (symRegs now false b r) := by
  have hcnt := h.count
  have hlen : (ss ++ [b]).length = ss.length + 1 := by simp
  rcases Nat.lt_or_ge ss.length 1200 with hlt | hge
  · have hcnt' : (symRegs now false b r).symcnt.toNat = ss.length + 1 := by
      rw [symRegs_below now b (by omega), BitVec.toNat_ofNat]
      omega
    refine ⟨by omega, fun _ => ?_⟩
    rw [startBlock_of_ne_zero (by omega), symRegs_below now b (by omega)]
    exact (h.takes_symbol b hlt).withSymcnt _
  · rw [symRegs_full now b (by omega)]
    exact ⟨by omega, by omega⟩

/-! ## The outcome -/

/-- The registers record an outcome of the block function (41_manchester R160). -/
structure Records (o : Result × FrameBits) (r : Regs) : Prop where
  result : r.result = o.1
  frame  : r.frame.fb = o.2

theorem blockOutcome_of_length_ne {ss : List Bool} (v : Bool) (h : ss.length ≠ 1200) :
    blockOutcome ss v = (.lengthError, 0) := if_pos h

/-- A full block that the registers hold decoded has the outcome its VIOL_ACT and its WBUF give. -/
theorem PairsDecoded.blockOutcome_eq {v : Bool} {ss : List Bool} {r : Regs} (h : PairsDecoded v ss r)
    (hlen : ss.length = 1200) :
    blockOutcome ss v = if r.violAct then (.lineViolation, 0) else (syncResult r.wbuf, r.wbuf) := by
  have hdecode := h.decode
  rw [hlen] at hdecode
  rw [blockOutcome, if_neg (not_not_intro hlen), hdecode]
  cases r.violAct with
  | true => rfl
  | false => simp [frameOfBits_wbufBits]

theorem endBlockLength_records (now : Timestamp) {ss : List Bool} (v : Bool) (h : ss.length ≠ 1200) (r : Regs) :
    Records (blockOutcome ss v) (endBlockLength now r) := by
  rw [blockOutcome_of_length_ne v h]
  exact ⟨rfl, Memory.fb_nil⟩

theorem endBlockGood_records (now : Timestamp) {v : Bool} {ss : List Bool} {r : Regs} (h : PairsDecoded v ss r)
    (hlen : ss.length = 1200) (hcnt : r.symcnt = 1199) : Records (blockOutcome ss v) (endBlockGood now r) := by
  rw [h.blockOutcome_eq hlen]
  rcases endBlockGood_cases now r hcnt with ⟨hviol, hend⟩ | ⟨hviol, hend⟩ <;> rw [hend, hviol]
  · exact ⟨rfl, Memory.fb_nil⟩
  · exact ⟨by simp, by simp⟩

/-- The last symbol records the outcome of the whole block. -/
theorem BlockOpen.last_symbol {v : Bool} {ss : List Bool} {r : Regs} (now : Timestamp) (b : Bool)
    (h : BlockOpen v ss r) : Records (blockOutcome (ss ++ [b]) v) (symRegs now true b r) := by
  have hcnt := h.count
  have hlen : (ss ++ [b]).length = ss.length + 1 := by simp
  by_cases hlast : r.symcnt.toNat = 1199
  · rw [symRegs_good_last now b hlast, ← takeSymbol_startBlock_odd b (by omega)]
    have hdec := (h.takes_symbol b (by omega)).pairsDecoded (by omega)
    refine endBlockGood_records now hdec (by omega) ?_
    rw [(takeSymbol_lineOnly b _).symcnt, startBlock_symcnt, r.symcnt_eq_last_iff, hlast]
  · rw [symRegs_wrong_last now b (by omega) hlast]
    exact endBlockLength_records now v (by omega) _

end Sys2Proof.Machine
end

section
/-! The serial form of a block (41_manchester R152, R160): delivered by SYM commands alone, and at the command port with
other commands between them. -/
namespace Sys2Proof.Machine

/-! ## A block of SYM commands -/

/-- What a block end records does not depend on a symbol taken before it. -/
theorem BlockEnded.of_symRegs {now now' : Timestamp} {b : Bool} {r r' : Regs}
    (h : BlockEnded now (symRegs now' false b r) r') : BlockEnded now r r' := by
  rcases symRegs_cases now' false b r with
    ⟨-, -, hr⟩ | ⟨_, ⟨_, _, _, _, rfl⟩, ⟨-, -, hr⟩ | ⟨hl, -⟩ | ⟨hl, -⟩⟩
  · exact hr ▸ h
  · rw [hr] at h
    exact { h with }
  · cases hl
  · cases hl

/-- The rest of an open block, delivered by SYM commands, ends it with the outcome of all its symbols. -/
theorem runOps_blockCommands {v : Bool} {received : List Bool} (ss : List Bool) (hss : ss ≠ []) (s : State)
    (h : BlockOpen v received s.regs) :
    ∃ r, runOps (blockCommands ss) s = .next (s.withRegs r) ∧ Records (blockOutcome (received ++ ss) v) r ∧
      BlockEnded s.pins.now s.regs r := by
  induction ss using blockCommands.induct generalizing s received with
  | case1 => exact absurd rfl hss
  | case2 b => exact ⟨_, rfl, h.last_symbol _ b, symRegs_last_blockEnded _ b _⟩
  | case3 b c rest ih =>
    obtain ⟨r, hrun, houtcome, hended⟩ :=
      ih (List.cons_ne_nil _ _) (s.withRegs (symRegs s.pins.now false b s.regs)) (h.append_symbol _ b)
    rw [List.append_assoc, List.singleton_append] at houtcome
    exact ⟨r, hrun, houtcome, hended.of_symRegs⟩

/-! ## The cycles between the symbols -/

/-- `r'` differs from `r` at most in what the host sets: CFG and the three flags of STATUS (10_state R40, R41). -/
def HostOnly (r r' : Regs) : Prop :=
  ∃ d i n o c, r' = { r with dialect := d, inv := i, newFlag := n, ovr := o, cmderr := c }

theorem setdialectRegs_hostOnly (dd : BitVec 2) (r : Regs) : HostOnly r (setdialectRegs dd r) := by
  unfold setdialectRegs
  split <;> exact ⟨_, _, _, _, _, rfl⟩

/-- A command other than SYM and SRST only sets CFG or flags. -/
theorem regsAfter_hostOnly {i : Instr} (hcmd : i.format = .cmd) (hsym : ∀ l b, i ≠ .sym l b) (hsrst : i ≠ .srst)
    (now : Timestamp) (r : Regs) : HostOnly r (regsAfter now r i) := by
  cases i with
  | sym l b => exact absurd rfl (hsym l b)
  | srst => exact absurd rfl hsrst
  | setdialect dd => exact setdialectRegs_hostOnly dd r
  | nop | setinv | ack => exact ⟨_, _, _, _, _, rfl⟩
  | _ => cases hcmd

theorem Pins.symbol_eq_some {p : Pins} {l b : Bool} (h : p.symbol = some (l, b)) : p.instr = some (.sym l b) := by
  unfold Pins.symbol at h
  split at h
  next l' b' hi =>
    cases h
    exact hi
  next => cases h

theorem Pins.instr_ne_sym {p : Pins} (h : p.symbol = none) (l b : Bool) : p.instr ≠ some (.sym l b) := by
  intro hi
  simp [Pins.symbol, hi] at h

/-- A cycle that neither resets nor delivers a symbol only sets CFG or flags (41_manchester R152). -/
theorem Pins.regsAfter_hostOnly {p : Pins} (hreset : p.resets = false) (hsymbol : p.symbol = none) (r : Regs) :
    HostOnly r (p.regsAfter r) := by
  obtain ⟨hrst, hsrst⟩ := Bool.or_eq_false_iff.mp hreset
  cases hvalid : p.cmdValid with
  | false =>
    rw [Pins.regsAfter_of_no_command hrst hvalid]
    exact ⟨_, _, _, _, _, rfl⟩
  | true =>
    cases hd : decodeCmd p.cmd with
    | illegal why =>
      rw [Pins.regsAfter_of_illegal hrst hvalid hd]
      exact ⟨_, _, _, _, _, rfl⟩
    | instr i =>
      have hi := Pins.instr_of_decode hrst hvalid hd
      rw [Pins.regsAfter_of_instr hi]
      refine Machine.regsAfter_hostOnly (decodeCmd_eq_instr_iff.mp hd).2.1 (fun l b hsym => ?_) (fun h => ?_) _ _
      · exact Pins.instr_ne_sym hsymbol l b (hi.trans (congrArg some hsym))
      · exact beq_eq_false_iff_ne.mp hsrst (hi.trans (congrArg some h))

/-- The line decoder reads nothing the host sets but CFG.INV, and that at a block's start. -/
theorem LineDecoded.hostOnly {v : Bool} {ss : List Bool} {r r' : Regs} (h : LineDecoded v ss r) (hr : HostOnly r r') :
    LineDecoded v ss r' := by
  obtain ⟨d, i, n, o, c, rfl⟩ := hr
  cases h with
  | pairs h => exact .pairs ⟨h.even, h.invAct, h.decode⟩
  | held h =>
    exact .held (r := { r with dialect := d, inv := i, newFlag := n, ovr := o, cmderr := c })
      ⟨h.even, h.invAct, h.decode⟩

theorem HostOnly.symcnt {r r' : Regs} (h : HostOnly r r') : r'.symcnt = r.symcnt := by
  obtain ⟨_, _, _, _, _, rfl⟩ := h
  rfl

/-- Once it has begun, a block stays open over what the host sets. -/
theorem BlockOpen.hostOnly {v : Bool} {ss : List Bool} {r r' : Regs} (h : BlockOpen v ss r) (hss : ss ≠ [])
    (hr : HostOnly r r') : BlockOpen v ss r' := by
  have hcnt := h.count
  have hcnt' : r'.symcnt.toNat = r.symcnt.toNat := congrArg BitVec.toNat hr.symcnt
  have hpos := List.length_pos_iff.mpr hss
  refine ⟨hcnt'.trans hcnt, fun hlt => ?_⟩
  have hdec := h.decoded hlt
  rw [startBlock_of_ne_zero (by omega)] at hdec ⊢
  exact hdec.hostOnly hr

theorem Records.hostOnly {o : Result × FrameBits} {r r' : Regs} (h : Records o r) (hr : HostOnly r r') :
    Records o r' := by
  obtain ⟨_, _, _, _, _, rfl⟩ := hr
  exact ⟨h.result, h.frame⟩

/-! ## Runs of cycles -/

/-- A run of cycles goes on from the state after its first cycle. -/
theorem runCycles_cons_goes {p : Pins} {ps : List Pins} {s : State} {P : State → Prop}
    (h : ∀ t, t.regs = p.regsAfter s.regs → Settled t → Goes (runCycles ps t) P) : Goes (runCycles (p :: ps) s) P := by
  obtain ⟨t, ht, hr, hsettled⟩ := step_regs { s with pins := p }
  rw [runCycles, ht, andThen_next]
  exact h t hr hsettled

/-- After a block: its outcome is recorded, the count is 0 and the ports show the decode. -/
structure Delivered (o : Result × FrameBits) (s : State) : Prop where
  records : Records o s.regs
  symcnt  : s.regs.symcnt = 0
  settled : Settled s

/-- Cycles without a symbol and without a reset keep what a block recorded. -/
theorem runCycles_delivered {o : Result × FrameBits} (ps : List Pins) (hreset : ∀ q ∈ ps, q.resets = false)
    (hsymbols : ps.filterMap Pins.symbol = []) (s : State) (h : Delivered o s) :
    Goes (runCycles ps s) (Delivered o) := by
  induction ps generalizing s with
  | nil => exact ⟨s, rfl, h⟩
  | cons p ps ih =>
    obtain ⟨hp, hps⟩ := List.forall_mem_cons.mp hreset
    rw [List.filterMap_eq_nil_iff] at hsymbols
    obtain ⟨hsymbol, hsymbols⟩ := List.forall_mem_cons.mp hsymbols
    refine runCycles_cons_goes fun t hr hsettled => ?_
    have hhost : HostOnly s.regs t.regs := hr ▸ Pins.regsAfter_hostOnly hp hsymbol s.regs
    exact ih hps (List.filterMap_eq_nil_iff.mpr hsymbols) t
      ⟨h.records.hostOnly hhost, hhost.symcnt.trans h.symcnt, hsettled⟩

/-- The rest of an open block, delivered at the command port among other commands, records the outcome of all its
symbols. Before the first symbol no other command may come: it could be SETINV. -/
theorem runCycles_block {v : Bool} {received : List Bool} (ps : List Pins) (hreset : ∀ q ∈ ps, q.resets = false)
    (ss : List Bool) (hss : ss ≠ []) (hsymbols : ps.filterMap Pins.symbol = flagged ss) (s : State)
    (h : BlockOpen v received s.regs) (hfirst : received = [] → ∀ p ∈ ps.head?, p.symbol ≠ none) :
    Goes (runCycles ps s) (Delivered (blockOutcome (received ++ ss) v)) := by
  induction ps generalizing s received ss with
  | nil =>
    match ss with
    | [] => exact absurd rfl hss
    | [_] | _ :: _ :: _ => cases hsymbols
  | cons p ps ih =>
    obtain ⟨hp, hps⟩ := List.forall_mem_cons.mp hreset
    refine runCycles_cons_goes fun t hr hsettled => ?_
    cases hsymbol : p.symbol with
    | none =>
      have hreceived : received ≠ [] := fun hnil => hfirst hnil p rfl hsymbol
      rw [List.filterMap_cons_none hsymbol] at hsymbols
      have hopen : BlockOpen v received t.regs :=
        h.hostOnly hreceived (hr ▸ Pins.regsAfter_hostOnly hp hsymbol s.regs)
      exact ih hps ss hss hsymbols t hopen fun hnil => absurd hnil hreceived
    | some x =>
      obtain ⟨l, b⟩ := x
      rw [Pins.regsAfter_of_instr (Pins.symbol_eq_some hsymbol)] at hr
      rw [List.filterMap_cons_some hsymbol] at hsymbols
      match ss with
      | [] => exact absurd rfl hss
      | [c] =>
        obtain ⟨hlb, hrest⟩ := List.cons.inj hsymbols
        cases hlb
        have hrecords := h.last_symbol p.now b
        have hended := symRegs_last_blockEnded p.now b s.regs
        exact runCycles_delivered ps hps hrest t ⟨hr ▸ hrecords, hr ▸ hended.symcnt, hsettled⟩
      | c :: c' :: rest =>
        obtain ⟨hlb, hrest⟩ := List.cons.inj hsymbols
        cases hlb
        have hopen : BlockOpen v (received ++ [b]) t.regs := hr ▸ h.append_symbol p.now b
        have hgoes := ih hps (c' :: rest) (List.cons_ne_nil _ _) hrest t hopen
          fun hnil => absurd hnil (List.append_ne_nil_of_right_ne_nil _ (List.cons_ne_nil _ _))
        rwa [List.append_assoc] at hgoes

/-! ## The statements -/

/-- Settles O31: from SYMCNT 0 nothing of the block is held (`BlockOpen.nil`), each symbol is added to what is held, and
the last one records the block's outcome (`runOps_blockCommands`). -/
theorem serialBlockEqualsTheBlockFunction : Obligations.SerialBlockEqualsTheBlockFunction := by
  unfold Obligations.SerialBlockEqualsTheBlockFunction
  intro s ss hzero hss
  obtain ⟨r, hrun, ⟨hresult, hframe⟩, ⟨hovr, hnew, -, htstamp, hcnt, hdialect, hinv, hcmderr⟩⟩ :=
    runOps_blockCommands ss hss s (.nil hzero)
  exact ⟨_, hrun, hresult, hframe, hcnt, hnew, hovr, htstamp, hdialect, hinv, hcmderr, rfl, rfl, rfl⟩

/-- Settles O32: the same invariant, kept by the cycles between the symbols as well (`runCycles_block`). -/
theorem interleavedBlockRecordsItsOutcome : Obligations.InterleavedBlockRecordsItsOutcome := by
  unfold Obligations.InterleavedBlockRecordsItsOutcome
  intro s p ps ss hzero hfirst hreset hsymbols
  have hsome : p.symbol ≠ none := Option.isSome_iff_ne_none.mp hfirst
  have hss : ss ≠ [] := by
    rintro rfl
    exact hsome (List.filterMap_eq_nil_iff.mp hsymbols p List.mem_cons_self)
  have hhead : ∀ q ∈ (p :: ps).head?, q.symbol ≠ none := by
    rintro q ⟨⟩
    exact hsome
  obtain ⟨t, hrun, ⟨⟨hresult, hframe⟩, hcnt, hsettled⟩⟩ :=
    runCycles_block (p :: ps) hreset ss hss hsymbols s (.nil hzero) fun _ => hhead
  exact ⟨t, hrun, hresult, hframe, hcnt, hsettled⟩

end Sys2Proof.Machine
end

section
/-! The frame synchroniser (42_frame_sync): what a commit leaves at the ports, what a lane's record reads, and what of a
held frame the dialect does not touch. -/
namespace Sys2Proof.Machine

/-! ## The commit -/

theorem commitReady_of_last {r : Regs} (hcnt : r.symcnt.toNat = 1199) (hviol : r.violAct = false) :
    commitReady r = true := by
  simp [commitReady, r.symcnt_eq_last_iff.mpr hcnt, hviol]

/-- A selected SYNC.MATCH commits WBUF as a valid frame and drives the frame ports from it (42_frame_sync R172). -/
theorem exec_syncMatch_of_match {s : State} (hready : commitReady s.regs = true) (hmatch : syncMatch s.regs.wbuf = true) :
    exec .syncMatch s = .next (s.withRegs (commitFrame .syncOk s.regs)).driveFrame := by
  have hsel : (commitReady s.regs && syncMatch s.regs.wbuf) = true := by rw [hready, hmatch]; rfl
  rw [exec, execSyncMatch, if_pos hsel, syncMatchRegs, if_pos hsel]

/-- A selected SYNC.MISS commits WBUF as an invalid frame and drives the frame ports from it (42_frame_sync R173). -/
theorem exec_syncMiss_of_miss {s : State} (hready : commitReady s.regs = true) (hmiss : syncMatch s.regs.wbuf = false) :
    exec .syncMiss s = .next (s.withRegs (commitFrame .syncFail s.regs)).driveFrame := by
  have hsel : (commitReady s.regs && !syncMatch s.regs.wbuf) = true := by rw [hready, hmiss]; rfl
  rw [exec, execSyncMiss, if_pos hsel, syncMissRegs, if_pos hsel]

theorem frameBit_commitFrame (res : Result) (r : Regs) {j : Nat} (hj : j < 600) :
    frameBit (commitFrame res r) j = r.wbuf.getMsbD j := by
  rw [frameBit, ← Memory.fb_getMsbD _ hj, commitFrame_frame, Memory.fb_ofBits]

/-- A commit changes FRAME and RESULT only (41_manchester R158). -/
theorem commitFrame_only (res : Result) (r : Regs) :
    commitFrame res r = { r with frame := (commitFrame res r).frame, result := res } := by
  rw [commitFrame_frame, commitFrame]

/-- Lane k's message after a commit is its slice of WBUF (20_memory R62). -/
theorem msg_commitFrame_getMsbD (res : Result) (r : Regs) (k : Lane) {i : Nat} (hi : i < 192) :
    ((commitFrame res r).msg k).getMsbD i = r.wbuf.getMsbD (192 * laneIndex k + i) := by
  have hk := laneIndex_le k
  rw [Regs.msg_getMsbD _ k hi, frameBit_commitFrame res r (by omega)]

/-- A lane of a valid frame is opened on its message, TSTAMP and the dialect (43_message_fields R180). -/
theorem Regs.openedLane_of_valid {r : Regs} (h : r.result = .syncOk) (k : Lane) :
    ∃ L, r.openedLane k = some L ∧ L.ts = r.tstamp ∧ L.dialect.toNat = dialectNat r.dialect ∧ L.raw = r.msg k :=
  ⟨LaneOut.opened r k, if_pos (r.frameValid_iff.mpr h), rfl, Dialect.code_toNat r.dialect, rfl⟩

/-! ## What a lane's record reads -/

/-- A message reads its own 24 bytes and nothing else of the frame (42_frame_sync R175). -/
theorem Regs.msg_congr {r r' : Regs} {k : Lane}
    (h : ∀ i, i < 24 → r.frame.get (24 * laneIndex k + i) = r'.frame.get (24 * laneIndex k + i)) :
    r.msg k = r'.msg k := by
  apply BitVec.eq_of_getMsbD_eq
  intro i hi
  have hbyte : (192 * laneIndex k + i) / 8 = 24 * laneIndex k + i / 8 := by omega
  rw [Regs.msg_getMsbD r k hi, Regs.msg_getMsbD r' k hi, frameBit, frameBit, hbyte, h (i / 8) (by omega)]

theorem Regs.laneRecord_congr {r r' : Regs} {k : Lane} (hvalid : r.result = .syncOk ↔ r'.result = .syncOk)
    (hdialect : r.dialect = r'.dialect) (hts : r.tstamp = r'.tstamp) (hmsg : r.msg k = r'.msg k) :
    r.laneRecord k = r'.laneRecord k := by
  have hv : r.frameValid = r'.frameValid := by rwa [Bool.eq_iff_iff, r.frameValid_iff, r'.frameValid_iff]
  rw [Regs.laneRecord, Regs.laneRecord, hv, hdialect, hts, hmsg]

theorem Regs.laneRecord_eq_some_iff {r : Regs} {k : Lane} {L : LaneOut} :
    r.laneRecord k = some L ↔ r.frameValid = true ∧ laneOutputs r.tstamp r.dialect (r.msg k) = L := by
  simp [Regs.laneRecord]

/-! ## A dialect change -/

/-- A lane shown under one dialect is shown under every other, with the record of the same message
(42_frame_sync R176). -/
theorem Regs.laneRecord_withDialect {r : Regs} {k : Lane} {L : LaneOut} (h : r.laneRecord k = some L) (d : Dialect) :
    Regs.laneRecord { r with dialect := d } k = some (laneOutputs r.tstamp d (r.msg k)) :=
  Regs.laneRecord_eq_some_iff.mpr ⟨(Regs.laneRecord_eq_some_iff.mp h).1, rfl⟩

/-- A step on SETDIALECT with a legal code writes CFG.DIALECT and settles the ports (40_host_commands R133). -/
theorem step_setdialect {s : State} {d : Dialect} (h : s.pins.instr = some (.setdialect d.code)) :
    Goes (step s) fun t => t.regs = { s.regs with dialect := d } ∧ Settled t := by
  obtain ⟨t, ht, hregs, hset⟩ := step_regs s
  rw [Pins.regsAfter_of_instr h, regsAfter, setdialectRegs_code] at hregs
  exact ⟨t, ht, hregs, hset⟩

/-! ## The statements -/

/-- Settles O37: the commit drives the frame ports of a valid frame, and each lane is opened on its slice of WBUF
(`msg_commitFrame_getMsbD`). -/
theorem syncMatchShowsThreeMessages : Obligations.SyncMatchShowsThreeMessages := by
  unfold Obligations.SyncMatchShowsThreeMessages
  intro s hcnt hviol hmatch
  rw [decodeFrame_eq_syncMatch_iff] at hmatch
  refine ⟨_, exec_syncMatch_of_match (commitReady_of_last hcnt hviol) hmatch, ?_⟩
  simp only [State.driveFrame_regs, State.driveFrame_pins, State.driveFrame_script, State.driveFrame_out,
    State.withRegs_regs, State.withRegs_pins, State.withRegs_script, Regs.frameOutputs_lane, true_and]
  refine ⟨commitFrame_only .syncOk s.regs, fun j => frameBit_commitFrame .syncOk s.regs, rfl, rfl, rfl, fun k => ?_⟩
  obtain ⟨L, hL, hts, hdialect, hraw⟩ := Regs.openedLane_of_valid (commitFrame_result .syncOk s.regs) k
  rw [commitFrame_tstamp] at hts
  rw [commitFrame_dialect] at hdialect
  exact ⟨L, hL, hts, hdialect, fun i hi => hraw ▸ msg_commitFrame_getMsbD .syncOk s.regs k hi⟩

/-- Settles O38: the commit drives the frame ports of an invalid frame, which opens no lane. -/
theorem syncMissShowsNoMessage : Obligations.SyncMissShowsNoMessage := by
  unfold Obligations.SyncMissShowsNoMessage
  intro s hcnt hviol hmiss
  rw [decodeFrame_eq_syncMiss_iff] at hmiss
  have habsent (k : Lane) : (commitFrame .syncFail s.regs).openedLane k = none := rfl
  have hbytes : (commitFrame .syncFail s.regs).frameOutputs.frameBytes = s.regs.wbuf := by
    simp [Regs.frameOutputs, Regs.framePresent]
  refine ⟨_, exec_syncMiss_of_miss (commitReady_of_last hcnt hviol) hmiss, ?_⟩
  simp only [State.driveFrame_regs, State.driveFrame_pins, State.driveFrame_script, State.driveFrame_out,
    State.withRegs_regs, State.withRegs_pins, State.withRegs_script, Regs.frameOutputs_lane, true_and]
  exact ⟨commitFrame_only .syncFail s.regs, fun j => frameBit_commitFrame .syncFail s.regs, rfl, rfl, rfl, hbytes,
    habsent⟩

/-- Settles O59: both steps end settled, and a lane's record reads the frame through its message
(`Regs.msg_congr`, `Regs.laneRecord_congr`). -/
theorem lanesReadOnlyTheirOwnMessage : Obligations.LanesReadOnlyTheirOwnMessage := by
  unfold Obligations.LanesReadOnlyTheirOwnMessage
  intro s u k
  obtain ⟨t, ht, hset⟩ := step_settled s
  obtain ⟨v, hv, hset'⟩ := step_settled u
  refine ⟨t, ht, v, hv, fun hvalid hdialect hts hbytes => ?_⟩
  rw [hset.lane, hset'.lane, Regs.laneRecord_congr hvalid hdialect hts (Regs.msg_congr hbytes)]

/-- Settles O30: the ports before and after are the decode of registers that differ in the dialect, and each lane shown
keeps its message (`Regs.laneRecord_withDialect`). -/
theorem dialectChangeRederivesTheHeldFrame : Obligations.DialectChangeRederivesTheHeldFrame := by
  unfold Obligations.DialectChangeRederivesTheHeldFrame
  intro s d hset hinstr
  rw [Dialect.ofNat_dialectNat] at hinstr
  obtain ⟨t, ht, hregs, hset'⟩ := step_setdialect hinstr
  have hout : s.out = decodeOutputs s.regs := hset
  have hout' : t.out = decodeOutputs { s.regs with dialect := d } := hregs ▸ hset'
  refine ⟨t, ht, hregs, hset', ?_⟩
  simp only [hset.lane, hset'.lane, hregs]
  rw [hout, hout']
  refine ⟨Dialect.code_toNat d, rfl, rfl, rfl, fun k L hL => ?_⟩
  obtain rfl := Regs.laneRecord_eq_some hL
  exact ⟨_, Regs.laneRecord_withDialect hL d, Dialect.code_toNat d, rfl, rfl, rfl, rfl, rfl⟩

end Sys2Proof.Machine
end

section
/-! SUPPORT. Fields, single bits and parity of a word as arithmetic on its number, and a lane's words as the numbers its
bytes spell (00_scope R11, R13; 20_memory R66). -/
namespace Sys2Proof.Machine

/-! ## Fields, bits and parity of a number -/

/-- A slice as a quotient; the cast cuts it to its width (00_scope R12). -/
theorem bits_eq_ofNat {n : Nat} (s : BitVec n) (a w : Nat) :
    bits s a w = BitVec.ofNat w (s.toNat / 2 ^ (n - a - w)) := by
  rw [bits_eq_iff, BitVec.toNat_ofNat]

/-- `s[i]` is bit n-1-i of the number (00_scope R9). -/
theorem bitAt_eq_testBit {n : Nat} (s : BitVec n) {i : Nat} (hi : i < n) : bitAt s i = s.toNat.testBit (n - 1 - i) := by
  rw [bitAt, BitVec.getMsbD, decide_eq_true hi, Bool.true_and]
  rfl

/-- The population count does not depend on the numbering of the bits (00_scope R13). -/
theorem popcount_eq_onesNat {n : Nat} (s : BitVec n) : popcount s = onesNat s.toNat n := by
  have hrev : (List.range n).map (n - 1 - ·) = (List.range n).reverse := by
    rw [List.range_eq_range', List.reverse_range', Nat.zero_add, List.range_eq_range']
  calc popcount s = (List.range n).countP fun i => s.toNat.testBit (n - 1 - i) :=
        List.countP_congr fun i hi => by rw [bitAt_eq_testBit s (List.mem_range.mp hi)]
    _ = ((List.range n).map (n - 1 - ·)).countP fun i => s.toNat.testBit i := by rw [List.countP_map]; rfl
    _ = onesNat s.toNat n := by rw [hrev, List.countP_reverse, onesNat]

theorem onesNat_succ (v w : Nat) : onesNat v (w + 1) = onesNat (v / 2) w + v % 2 := by
  rw [onesNat, List.range_succ_eq_map, List.countP_cons, List.countP_map, onesNat]
  congr 1
  · refine List.countP_congr fun i _ => ?_
    simp [Nat.testBit_succ]
  · rcases Nat.mod_two_eq_zero_or_one v with h | h <;> simp [Nat.testBit_zero, h]

/-- The parity bit makes the whole word even (43_message_fields R205). -/
theorem parityOk_eq (w : Word24) : parityOk w = (onesNat w.toNat 24 % 2 == 0) := by
  have hhead : popcount (bits w 0 23) = onesNat (w.toNat / 2) 23 := by
    have hlt := w.isLt
    rw [popcount_eq_onesNat, bits_toNat]
    congr 1
    omega
  have hlast : bitAt w 23 = decide (w.toNat % 2 = 1) := by
    rw [bitAt_eq_testBit w (by omega), Nat.testBit_zero]
  rw [parityOk, hhead, hlast, onesNat_succ w.toNat 23, Bool.eq_iff_iff, beq_iff_eq, beq_iff_eq]
  rcases Nat.mod_two_eq_zero_or_one w.toNat with h | h
  · simp [h]
  · simp [h]
    omega

/-! ## The words of a lane -/

section Word
variable (r : Regs) (k : Lane) {j : Nat} (hj : j < 8)
include hj

/-- A word is the number its three bytes spell (20_memory R66). -/
theorem Regs.wordOf_msg_eq : wordOf (r.msg k) j = BitVec.ofNat 24 (wordNat r k j) := by
  rw [← r.word_toNat k hj, BitVec.ofNat_toNat, BitVec.setWidth_eq, Regs.word]

theorem Regs.word_bits (a w : Nat) :
    bits (r.word k j) a w = BitVec.ofNat w (wordNat r k j / 2 ^ (24 - a - w)) := by
  rw [bits_eq_ofNat, r.word_toNat k hj]

theorem Regs.word_bitAt {i : Nat} (hi : i < 24) : bitAt (r.word k j) i = (wordNat r k j).testBit (23 - i) := by
  rw [bitAt_eq_testBit _ hi, r.word_toNat k hj]

end Word

end Sys2Proof.Machine
end

section
/-! The word split, the format class and the format check of a lane (43_message_fields R181 to R192). -/
namespace Sys2Proof.Machine

/-! ## Selected operations and checked records -/

/-- A selected message operation of a valid frame drives its lane's record and nothing else (43_message_fields R180). -/
theorem DrivesLane.of_drive {s : State} {k : Lane} {i : Instr} {sel : Bool} {f : LaneOut → LaneOut} {L : LaneOut}
    (hi : exec i s = .next (s.drive k sel f)) (hres : s.regs.result = .syncOk) (hsel : sel = true)
    (hL : f (s.laneRec k) = L) : DrivesLane (exec i s) s k L := by
  rw [DrivesLane, hi, State.drive_selected (s.regs.frameValid_iff.mpr hres) hsel, hL]

theorem LaneOut.checked_eq (L : LaneOut) (valid : Bool) : L.checked valid = checkedRec L valid := by
  cases valid <;> rfl

/-- HOUSEKEEPING by the computed class is HOUSEKEEPING by the bytes (43_message_fields R183). -/
theorem Regs.classify_msg_hk (r : Regs) (k : Lane) : classify (r.msg k) = .housekeeping ↔ IsHk r k := by
  rw [classify_eq_housekeeping, r.wordOf_eq_iff k (by omega)]
  rfl

/-- The check of dialect `d` and class `c` reads the dialect's bit and expects `v` of it (43_message_fields R186). -/
theorem DrivesLane.of_check {s : State} {k : Lane} {i : Instr} {d : Dialect} {c : FormatClass} {v : Bool}
    (hi : exec i s = .next (s.drive k (s.regs.isMsg k d c) fun L => L.checked (checkBit d (s.regs.msg k) == v)))
    (hres : s.regs.result = .syncOk) (hd : s.regs.dialect = d) (hc : classify (s.regs.msg k) = c) :
    DrivesLane (exec i s) s k
      (checkedRec (s.laneRec k) (frameBit s.regs (192 * laneIndex k + checkAddr d) == v)) := by
  subst hd
  have hsel : s.regs.isMsg k s.regs.dialect c = true := by simp [Regs.isMsg, Regs.classOf, hc]
  refine .of_drive hi hres hsel ?_
  rw [LaneOut.checked_eq, Regs.checkBit_msg, chkBit]

/-! ## Valid messages -/

section Valid
variable {r : Regs} {k : Lane}

theorem ShortValid.classify_msg (h : ShortValid r k) : classify (r.msg k) = .short := by
  obtain ⟨-, hclass, -⟩ := h
  exact (r.classify_msg_short k).mpr hclass

theorem LongValid.classify_msg (h : LongValid r k) : classify (r.msg k) = .long := by
  obtain ⟨-, hclass, -⟩ := h
  exact (r.classify_msg_long k).mpr hclass

/-- The payload of a valid SHORT message (43_message_fields R206). -/
theorem ShortValid.payload (h : ShortValid r k) :
    r.payload k = some (.len88, payShort (payStart r.dialect) (r.msg k)) := by
  have hc := h.classify_msg
  obtain ⟨hres, -, hbit⟩ := h
  simp [Regs.payload, r.frameValid_iff.mpr hres, payloadOf, fmtValidOf, hc, Regs.checkBit_msg, hbit]

/-- The payload of a valid LONG message (43_message_fields R206). -/
theorem LongValid.payload (h : LongValid r k) :
    r.payload k = some (.len120, payLong (payStart r.dialect) (r.msg k)) := by
  have hc := h.classify_msg
  obtain ⟨hres, -, hbit⟩ := h
  simp [Regs.payload, r.frameValid_iff.mpr hres, payloadOf, fmtValidOf, hc, Regs.checkBit_msg, hbit]

/-- Of a valid frame's messages the valid SHORT and LONG ones are format-valid (43_message_fields R186). -/
theorem Regs.msgValid_iff (hres : r.result = .syncOk) : r.msgValid k = true ↔ ShortValid r k ∨ LongValid r k := by
  have hpayload : r.payload k = payloadOf r.dialect (r.msg k) := by
    rw [Regs.payload, if_pos (r.frameValid_iff.mpr hres)]
  rw [Regs.msgValid, ← payloadOf_isSome, ← hpayload]
  constructor
  · intro h
    obtain ⟨p, hp⟩ := Option.isSome_iff_exists.mp h
    exact (Regs.payload_valid hp).imp And.right And.right
  · rintro (h | h) <;> rw [h.payload] <;> rfl

theorem ShortValid.msgValid (h : ShortValid r k) : r.msgValid k = true := (Regs.msgValid_iff h.1).mpr (.inl h)

theorem LongValid.msgValid (h : LongValid r k) : r.msgValid k = true := (Regs.msgValid_iff h.1).mpr (.inr h)

end Valid

/-! ## The statements -/

/-- Settles O39: each word is the number its bytes spell (`Regs.wordOf_msg_eq`). -/
theorem wordsAreBigEndian : Obligations.WordsAreBigEndian := by
  unfold Obligations.WordsAreBigEndian
  intro s k hres
  refine .of_drive rfl hres rfl ?_
  simp only [wordsOf, Regs.wordOf_msg_eq, Nat.reduceLT]

/-- Settles O40: the class computed from the message is the one its bytes have, and selects the operation. -/
theorem formatClassIsDriven : Obligations.FormatClassIsDriven := by
  unfold Obligations.FormatClassIsDriven
  intro s k hres
  refine ⟨fun h => .of_drive rfl hres ?_ rfl, fun h => .of_drive rfl hres ?_ rfl, fun h => .of_drive rfl hres ?_ rfl⟩
  · exact beq_iff_eq.mpr ((s.regs.classify_msg_hk k).mpr h)
  · exact beq_iff_eq.mpr ((s.regs.classify_msg_short k).mpr h)
  · exact beq_iff_eq.mpr ((s.regs.classify_msg_long k).mpr h)

/-- Settles O41: the six checks are `DrivesLane.of_check` at a dialect and a class. -/
theorem formatChecksReadTheirBit : Obligations.FormatChecksReadTheirBit := by
  unfold Obligations.FormatChecksReadTheirBit
  intro s k hres
  have hshort := (s.regs.classify_msg_short k).mpr
  have hlong := (s.regs.classify_msg_long k).mpr
  exact ⟨fun hd h => .of_check (d := .s2) rfl hres hd (hshort h), fun hd h => .of_check (d := .s2) rfl hres hd (hlong h),
    fun hd h => .of_check (d := .s3) rfl hres hd (hshort h), fun hd h => .of_check (d := .s3) rfl hres hd (hlong h),
    fun hd h => .of_check (d := .c2) rfl hres hd (hshort h), fun hd h => .of_check (d := .c2) rfl hres hd (hlong h)⟩

/-- Settles O42: after a step a lane of a valid frame shows the output function's record (`step_settled`), whose flags
are the class and the validity by the bytes (`Regs.msgValid_iff`). -/
theorem formatValidityOfEveryLane : Obligations.FormatValidityOfEveryLane := by
  unfold Obligations.FormatValidityOfEveryLane
  intro s
  obtain ⟨t, ht, hset⟩ := step_settled s
  refine ⟨t, ht, fun hres k => ⟨laneOutputs t.regs.tstamp t.regs.dialect (t.regs.msg k), ?_, ?_, ?_, ?_⟩⟩
  · rw [hset.lane k, Regs.laneRecord, if_pos (t.regs.frameValid_iff.mpr hres)]
  · rw [← t.regs.classify_msg_hk k]
    simp [laneOutputs, fmtCheckedOf]
  · exact Regs.msgValid_iff hres
  · intro h
    have hinvalid : fmtValidOf t.regs.dialect (t.regs.msg k) = false := h
    have hnone : payloadOf t.regs.dialect (t.regs.msg k) = none := by simp [payloadOf, hinvalid]
    simp [laneOutputs, hinvalid, hnone]

end Sys2Proof.Machine
end

section
/-! The word0 and timecode fields of a lane by arithmetic on the word's number (43_message_fields R193 to R205). -/
namespace Sys2Proof.Machine

/-! ## The fields of a word -/

theorem Dialect.isSarsat_iff {d : Dialect} : d.isSarsat = true ↔ d ≠ .c2 := by cases d <;> decide

/-- `LEVEL_ROM` as the table of 20_memory R72. -/
theorem levelRom_eq (a : BitVec 3) :
    levelRom a = BitVec.ofNat 10 ([323, 348, 375, 411, 452, 501, 555, 621].getD a.toNat 0) := by
  revert a
  decide

section Fields
variable (r : Regs) (k : Lane)

/-- The level is word0 modulo 64 (43_message_fields R193). -/
theorem Regs.levelOf_word : levelOf (r.word k 0) =
    { level     := BitVec.ofNat 6 (wordNat r k 0 % 64)
      levelCdbm := BitVec.ofInt 16 (55 * (wordNat r k 0 % 64 : Nat) - 14000) } := by
  have hlevel : bits (r.word k 0) 18 6 = BitVec.ofNat 6 (wordNat r k 0 % 64) := by
    apply BitVec.eq_of_toNat_eq
    rw [r.word_bits k (by omega), BitVec.toNat_ofNat, BitVec.toNat_ofNat]
    omega
  have hnat : (bits (r.word k 0) 18 6).toNat = wordNat r k 0 % 64 := by
    rw [hlevel, BitVec.toNat_ofNat]
    omega
  rw [levelOf, hnat, hlevel]

/-- Under SARSAT-SARP-2 the first bit of `dru` is the format check bit, the second `latest`
(43_message_fields R196). -/
theorem Regs.dru_word (hd : r.dialect = .s2) : bits (r.word k 0) 15 2 =
    BitVec.ofNat 2 (2 * (chkBit r k).toNat + ((wordNat r k 0).testBit 7).toNat) := by
  have hchk : chkBit r k = (wordNat r k 0).testBit 8 := by
    rw [← r.checkBit_msg k, hd]
    exact r.word_bitAt k (j := 0) (i := 15) (by omega) (by omega)
  apply BitVec.eq_of_toNat_eq
  rw [r.word_bits k (by omega), hchk, Nat.toNat_testBit, Nat.toNat_testBit, BitVec.toNat_ofNat, BitVec.toNat_ofNat]
  omega

/-- The serial number and its entry of the table (43_message_fields R199). -/
theorem Regs.serialOf_word : serialOf (r.word k 0) =
    { serial    := BitVec.ofNat 3 (wordNat r k 0 / 512 % 8)
      serialDdb := BitVec.ofNat 10
        ([323, 348, 375, 411, 452, 501, 555, 621].getD (wordNat r k 0 / 512 % 8) 0) } := by
  have hserial : bits (r.word k 0) 12 3 = BitVec.ofNat 3 (wordNat r k 0 / 512 % 8) := by
    apply BitVec.eq_of_toNat_eq
    rw [r.word_bits k (by omega), BitVec.toNat_ofNat, BitVec.toNat_ofNat]
    omega
  have hnat : (bits (r.word k 0) 12 3).toNat = wordNat r k 0 / 512 % 8 := by
    rw [hserial, BitVec.toNat_ofNat]
    omega
  rw [serialOf, levelRom_eq, hnat, hserial]

/-- Timecode, parity bit and whole-word parity of word1 (43_message_fields R202, R205). -/
theorem Regs.timecodeOf_word : timecodeOf (r.word k 1) =
    { timecode    := BitVec.ofNat 23 (wordNat r k 1 / 2)
      parityBit   := wordNat r k 1 % 2 == 1
      parityValid := onesNat (wordNat r k 1) 24 % 2 == 0 } := by
  have hbit : bitAt (r.word k 1) 23 = (wordNat r k 1 % 2 == 1) := by
    rw [r.word_bitAt k (by omega) (by omega), Nat.testBit_zero]
    rfl
  rw [timecodeOf, parityOk_eq, r.word_toNat k (by omega), hbit, r.word_bits k (by omega)]
  rfl

end Fields

/-! ## The statements -/

/-- Settles O43: the fields of word0 by its number (`Regs.levelOf_word`, `Regs.word_bitAt`). -/
theorem sharedWordZeroFields : Obligations.SharedWordZeroFields := by
  unfold Obligations.SharedWordZeroFields
  intro s k hres hd
  have hsel := Dialect.isSarsat_iff.mpr hd
  rw [← s.regs.levelOf_word k, ← s.regs.word_bitAt k (i := 17) (by omega) (by omega),
    ← s.regs.word_bitAt k (i := 16) (by omega) (by omega)]
  exact ⟨.of_drive rfl hres hsel rfl, .of_drive rfl hres hsel rfl, .of_drive rfl hres hsel rfl⟩

/-- Settles O44: `Regs.dru_word` and one bit of word0. -/
theorem wordZeroFieldsOfSarp2 : Obligations.WordZeroFieldsOfSarp2 := by
  unfold Obligations.WordZeroFieldsOfSarp2
  intro s k hres hd
  have hsel : (s.regs.dialect == .s2) = true := beq_iff_eq.mpr hd
  rw [← s.regs.dru_word k hd, ← s.regs.word_bitAt k (i := 12) (by omega) (by omega)]
  exact ⟨.of_drive rfl hres hsel rfl, .of_drive rfl hres hsel rfl⟩

/-- Settles O45: one bit of word0 and `Regs.serialOf_word`. -/
theorem wordZeroFieldsOfSarp3 : Obligations.WordZeroFieldsOfSarp3 := by
  unfold Obligations.WordZeroFieldsOfSarp3
  intro s k hres hd
  have hsel : (s.regs.dialect == .s3) = true := beq_iff_eq.mpr hd
  rw [← s.regs.serialOf_word k, ← s.regs.word_bitAt k (i := 15) (by omega) (by omega)]
  exact ⟨.of_drive rfl hres hsel rfl, .of_drive rfl hres hsel rfl⟩

/-- Settles O46: both operations are selected under COSPAS-SARP-2. -/
theorem cospasReportsUnsupported : Obligations.CospasReportsUnsupported := by
  unfold Obligations.CospasReportsUnsupported
  intro s k hres hd
  have hsel : (s.regs.dialect == .c2) = true := beq_iff_eq.mpr hd
  exact ⟨.of_drive rfl hres hsel rfl, .of_drive rfl hres hsel rfl⟩

/-- Settles O47: `Regs.timecodeOf_word`. -/
theorem timecodeAndItsParity : Obligations.TimecodeAndItsParity := by
  unfold Obligations.TimecodeAndItsParity
  intro s k hres hd
  rw [← s.regs.timecodeOf_word k]
  exact .of_drive rfl hres (Dialect.isSarsat_iff.mpr hd) rfl

end Sys2Proof.Machine
end

section
/-! The payload and the Doppler outputs of a lane: which bits of its message the payload is (43_message_fields R206 to
R212), and the Doppler value of a word as two's complement with its exact frequency (R213 to R218). -/
namespace Sys2Proof.Machine

/-! ## Payload bits -/

/-- A SHORT payload bit by bit: a 0, 87 message bits, zeros (43_message_fields R206). -/
theorem payShort_getMsbD (a : Nat) (M : MsgBits) (ha : a + 87 ≤ 192) {p : Nat} (hp : p < 120) :
    (payShort a M).getMsbD p = if p = 0 then false else if p < 88 then M.getMsbD (a + p - 1) else false := by
  have hfields : payShort a M = 0#1 ++ bits M a 87 ++ 0#32 := rfl
  rw [hfields, BitVec.getMsbD_append, BitVec.getMsbD_append]
  by_cases h0 : p = 0
  · simp [h0]
  · by_cases hlt : p < 88
    · rw [if_neg (by omega), if_pos (by omega), bits_getMsbD M (by omega) ha, if_neg h0, if_pos hlt]
      congr 1
      omega
    · simp [h0, hlt, (show 88 ≤ p by omega)]

/-- A LONG payload bit by bit: a 1, 119 message bits (43_message_fields R206). -/
theorem payLong_getMsbD (a : Nat) (M : MsgBits) (ha : a + 119 ≤ 192) {p : Nat} (hp : p < 120) :
    (payLong a M).getMsbD p = if p = 0 then true else if p < 120 then M.getMsbD (a + p - 1) else false := by
  have hfields : payLong a M = 1#1 ++ bits M a 119 := rfl
  rw [hfields, BitVec.getMsbD_append]
  by_cases h0 : p = 0
  · simp [h0]
  · rw [if_pos (by omega), bits_getMsbD M (by omega) ha, if_neg h0, if_pos hp]
    congr 1
    omega

theorem payStart_eq (d : Dialect) : payStart d = payloadAddr d := by cases d <;> rfl

theorem payStart_le (d : Dialect) : payStart d ≤ 72 := by cases d <;> decide

section Lane
variable (r : Regs) (k : Lane)

/-- Payload bit p is message bit p - 1 of the dialect's range (20_memory R64). -/
theorem Regs.msg_payload_getMsbD {p : Nat} (hp0 : p ≠ 0) (hp : p < 120) :
    (r.msg k).getMsbD (payStart r.dialect + p - 1) = frameBit r (192 * laneIndex k + payloadAddr r.dialect + p - 1) := by
  have hstart := payStart_le r.dialect
  rw [r.msg_getMsbD k (by omega), ← payStart_eq]
  congr 1
  omega

theorem payShort_bitsOf : PayloadBitsOf r k false 88 (payShort (payStart r.dialect) (r.msg k)) := by
  have hstart := payStart_le r.dialect
  intro p hp
  rw [payShort_getMsbD _ _ (by omega) hp]
  by_cases h0 : p = 0
  · rw [if_pos h0, if_pos h0]
  · rw [r.msg_payload_getMsbD k h0 hp]

theorem payLong_bitsOf : PayloadBitsOf r k true 120 (payLong (payStart r.dialect) (r.msg k)) := by
  have hstart := payStart_le r.dialect
  intro p hp
  rw [payLong_getMsbD _ _ (by omega) hp]
  by_cases h0 : p = 0
  · rw [if_pos h0, if_pos h0]
  · rw [r.msg_payload_getMsbD k h0 hp]

end Lane

/-! ## Operations of a valid message -/

section Valid
variable {s : State} {k : Lane} {i : Instr}

/-- The extraction of dialect `d` drives the payload of a valid SHORT message. -/
theorem ShortValid.drives_payload (h : ShortValid s.regs k) {d : Dialect}
    (hi : exec i s = .next (s.drive k (s.regs.isMsg k d .short && s.regs.msgValid k) fun L =>
      L.withShortPayload (payShort (payStart d) (s.regs.msg k)))) (hd : s.regs.dialect = d) :
    DrivesLane (exec i s) s k
      { s.laneRec k with
        payload := some { len := 88#7, bits := payShort (payStart s.regs.dialect) (s.regs.msg k) } } := by
  subst hd
  exact .of_drive hi h.1 (by simp [Regs.isMsg, Regs.classOf, h.classify_msg, h.msgValid]) rfl

/-- The extraction of dialect `d` drives the payload of a valid LONG message. -/
theorem LongValid.drives_payload (h : LongValid s.regs k) {d : Dialect}
    (hi : exec i s = .next (s.drive k (s.regs.isMsg k d .long && s.regs.msgValid k) fun L =>
      L.withLongPayload (payLong (payStart d) (s.regs.msg k)))) (hd : s.regs.dialect = d) :
    DrivesLane (exec i s) s k
      { s.laneRec k with
        payload := some { len := 120#7, bits := payLong (payStart s.regs.dialect) (s.regs.msg k) } } := by
  subst hd
  exact .of_drive hi h.1 (by simp [Regs.isMsg, Regs.classOf, h.classify_msg, h.msgValid]) rfl

end Valid

/-! ## The Doppler value -/

/-- The document's algorithm gives the first 23 bits in two's complement (43_message_fields R216). -/
theorem dopplerValue_eq (D : Word24) : dopplerValue D = dopplerInt D.toNat := by
  have hlt := D.isLt
  have hmag : (bits D 1 22).toNat = D.toNat / 2 % 4194304 := bits_toNat D 1 22
  have hsign : bitAt D 0 = true ↔ 8388608 ≤ D.toNat := by
    rw [bitAt_eq_true_iff D (by omega)]
    omega
  by_cases h : 8388608 ≤ D.toNat
  · rw [dopplerValue, if_pos (hsign.mpr h), BitVec.toNat_not, hmag, dopplerInt, if_neg (by omega)]
    omega
  · rw [dopplerValue, if_neg (mt hsign.mp h), hmag, dopplerInt, if_pos (by omega)]
    omega

/-- The first 23 bits of a word, read as a signed number. -/
theorem extract_toInt_eq_dopplerInt (D : Word24) : (D.extractLsb' 1 23).toInt = dopplerInt D.toNat := by
  have hlt := D.isLt
  have hnat : (D.extractLsb' 1 23).toNat = D.toNat / 2 := by
    rw [toNat_extractLsb']
    omega
  rw [BitVec.toInt_eq_toNat_cond, hnat, dopplerInt]
  split <;> split <;> omega

theorem dopplerInt_bounds (D : Word24) : -4194304 ≤ dopplerInt D.toNat ∧ dopplerInt D.toNat ≤ 4194303 := by
  have hlt := D.isLt
  unfold dopplerInt
  split <;> omega

/-- The Doppler outputs of a word are those of its number (43_message_fields R216 to R218). -/
theorem dopplerOf_eq (D : Word24) : dopplerOf D = dopplerRec D.toNat := by
  rw [dopplerOf, dopplerValue_eq, parityOk_eq, bitAt_eq_testBit D (by omega)]
  rfl

theorem dopplerOf_doppler (D : Word24) : (dopplerOf D).doppler = D.extractLsb' 1 23 := by
  rw [dopplerOf_eq, dopplerRec, ← extract_toInt_eq_dopplerInt, BitVec.ofInt_toInt]

/-- The frequency is exact: its 40 bits hold every value it can take (43_message_fields R218). -/
theorem dopplerOf_absFreqMhz_toNat (D : Word24) :
    ((dopplerOf D).absFreqMhz.toNat : Int) = 406050000000 + 15 * dopplerInt D.toNat := by
  obtain ⟨hlo, hhi⟩ := dopplerInt_bounds D
  rw [dopplerOf_eq, dopplerRec, BitVec.toNat_ofInt]
  omega

/-! ## The statements -/

/-- Settles O51: the payload the class gives (`ShortValid.payload`, `LongValid.payload`), bit by bit. -/
theorem payloadOfALane : Obligations.PayloadOfALane := by
  unfold Obligations.PayloadOfALane
  exact fun r k => ⟨fun h => ⟨_, h.payload, payShort_bitsOf r k⟩, fun h => ⟨_, h.payload, payLong_bitsOf r k⟩,
    Regs.payload_eq_none⟩

/-- Settles O48: the extraction of the held dialect drives the payload whose bits `payShort_bitsOf` and
`payLong_bitsOf` name. -/
theorem payloadIsPrefixAndRange : Obligations.PayloadIsPrefixAndRange := by
  unfold Obligations.PayloadIsPrefixAndRange
  intro s k
  refine ⟨fun h => ⟨_, payShort_bitsOf s.regs k, ?_, ?_, ?_⟩, fun h => ⟨_, payLong_bitsOf s.regs k, ?_, ?_, ?_⟩⟩
  · exact h.drives_payload (d := .s2) rfl
  · exact h.drives_payload (d := .s3) rfl
  · exact h.drives_payload (d := .c2) rfl
  · exact h.drives_payload (d := .s2) rfl
  · exact h.drives_payload (d := .s3) rfl
  · exact h.drives_payload (d := .c2) rfl

/-- Settles O49: the class selects word6 or word7, whose outputs are those of its number (`dopplerOf_eq`). -/
theorem dopplerReadsWordSixOrSeven : Obligations.DopplerReadsWordSixOrSeven := by
  unfold Obligations.DopplerReadsWordSixOrSeven
  refine fun s k => ⟨fun h => ?_, fun h => ?_⟩
  · rw [← s.regs.word_toNat k (j := 6) (by omega), ← dopplerOf_eq]
    exact .of_drive rfl h.1 (by simp [Regs.classOf, h.classify_msg, h.msgValid]) rfl
  · rw [← s.regs.word_toNat k (j := 7) (by omega), ← dopplerOf_eq]
    exact .of_drive rfl h.1 (by simp [Regs.classOf, h.classify_msg, h.msgValid]) rfl

/-- Settles O50: the value by `dopplerValue_eq`, the frequency by `dopplerOf_absFreqMhz_toNat`, its bounds by those of
the value. -/
theorem dopplerValueAndFrequencyAreExact : Obligations.DopplerValueAndFrequencyAreExact := by
  unfold Obligations.DopplerValueAndFrequencyAreExact
  intro D
  obtain ⟨hlo, hhi⟩ := dopplerInt_bounds D
  have hint : (dopplerOf D).doppler.toInt = dopplerInt D.toNat := by
    rw [dopplerOf_doppler, extract_toInt_eq_dopplerInt]
  have hfreq := dopplerOf_absFreqMhz_toNat D
  refine ⟨dopplerOf_doppler D, hint, dopplerValue_eq D, ?_, ?_, ?_⟩
  · rw [hint, hfreq]
  · omega
  · omega

end Sys2Proof.Machine
end

section
/-! An operation that the data do not select changes nothing (43_message_fields R224, assumption 9): the guard of a lane
operation implies that the decoder lists it, and the pair and sync operations test the registers. -/
namespace Sys2Proof.Machine

/-! ## Lane operations -/

theorem Regs.mem_ops_of_lane {r : Regs} {k : Lane} {i : Instr} (h : i ∈ r.laneOps k) : i ∈ r.ops := by
  rw [Regs.ops, List.mem_append, List.mem_append]
  cases k with
  | k0 => exact .inl (.inl h)
  | k1 => exact .inl (.inr h)
  | k2 => exact .inr h

section Unselected
variable {s : State} {k : Lane} {i : Instr}

/-- A message operation whose guard implies that the message selects it. -/
theorem exec_drive_of_notMem_ops {sel : Bool} {f : LaneOut → LaneOut} (hi : exec i s = .next (s.drive k sel f))
    (hsel : sel = true → i ∈ decodeMsg k s.regs.dialect (s.regs.msg k)) (h : i ∉ s.regs.ops) : exec i s = .next s := by
  rcases s.drive_cases k sel f with ⟨hv, hs, -⟩ | ⟨-, hd⟩
  · exact absurd (Regs.mem_ops_of_lane (Regs.mem_laneOps.mpr ⟨s.regs.frameValid_iff.mp hv, .inl (hsel hs)⟩)) h
  · rw [hi, hd]

/-- A beacon operation whose guard implies that the payload selects it. -/
theorem exec_driveBcn_of_notMem_ops {sel : PayloadLen → PayloadBits → Bool} {f : PayloadBits → BcnOut → BcnOut}
    (hi : exec i s = .next (s.driveBcn k sel f)) (hsel : ∀ len P, sel len P = true → i ∈ decodePayload k len P)
    (h : i ∉ s.regs.ops) : exec i s = .next s := by
  rcases s.driveBcn_cases k sel f with ⟨p, hp, hs, -⟩ | ⟨-, hd⟩
  · have hres : s.regs.result = .syncOk := by
      rcases Regs.payload_valid hp with ⟨-, hres, -⟩ | ⟨-, hres, -⟩ <;> exact hres
    exact absurd (Regs.mem_ops_of_lane (Regs.mem_laneOps.mpr ⟨hres, .inr ⟨p, hp, hsel _ _ hs⟩⟩)) h
  · rw [hi, hd]

end Unselected

section Guards
variable {r : Regs} {k : Lane} {i : Instr}

theorem Regs.isMsg_iff {d : Dialect} {c : FormatClass} :
    r.isMsg k d c = true ↔ r.dialect = d ∧ classify (r.msg k) = c := by
  simp [Regs.isMsg, Regs.classOf]

/-- The guard of a classification operation. -/
theorem fmtOp_mem_of_class {c : FormatClass} (h : (r.classOf k == c) = true) :
    fmtOp k c ∈ decodeMsg k r.dialect (r.msg k) :=
  fmtOp_mem_decodeMsg.mpr (beq_iff_eq.mp h)

/-- The guard of a format check. -/
theorem chkOp_mem_of_isMsg {d : Dialect} {c : FormatClass} (hi : i ∈ chkOps k d c) (h : r.isMsg k d c = true) :
    i ∈ decodeMsg k r.dialect (r.msg k) := by
  obtain ⟨rfl, rfl⟩ := Regs.isMsg_iff.mp h
  exact mem_decodeMsg.mpr (.inr (.inr (.inl hi)))

/-- The guard of a payload extraction. -/
theorem payOp_mem_of_isMsg {d : Dialect} {c : FormatClass} (hi : i ∈ payOps k d c)
    (h : (r.isMsg k d c && r.msgValid k) = true) : i ∈ decodeMsg k r.dialect (r.msg k) := by
  obtain ⟨hmsg, hvalid⟩ := Bool.and_eq_true_iff.mp h
  obtain ⟨rfl, rfl⟩ := Regs.isMsg_iff.mp hmsg
  exact mem_decodeMsg_of_valid hvalid (.inr (.inr hi))

/-- The guard of a Doppler operation, which every dialect has. -/
theorem dopOp_mem_of_class {c : FormatClass} (hi : ∀ d, i ∈ payOps k d c)
    (h : (r.classOf k == c && r.msgValid k) = true) : i ∈ decodeMsg k r.dialect (r.msg k) := by
  obtain ⟨hc, hvalid⟩ := Bool.and_eq_true_iff.mp h
  have hc : classify (r.msg k) = c := beq_iff_eq.mp hc
  exact mem_decodeMsg_of_valid hvalid (.inr (.inr (hc ▸ hi r.dialect)))

/-- The guard of an operation of both SARSAT dialects. -/
theorem sarsatOp_mem (hi : ∀ d, d ≠ .c2 → i ∈ w0Ops k d ∨ i = tcOp k d) (h : r.dialect.isSarsat = true) :
    i ∈ decodeMsg k r.dialect (r.msg k) :=
  mem_decodeMsg_of_dialect _ (.inr (hi _ (Dialect.isSarsat_iff.mp h)))

/-- The guard of an operation of one dialect. -/
theorem dialectOp_mem {d : Dialect} (hi : i ∈ w0Ops k d ∨ i = tcOp k d) (h : (r.dialect == d) = true) :
    i ∈ decodeMsg k r.dialect (r.msg k) :=
  mem_decodeMsg_of_dialect _ (.inr (beq_iff_eq.mp h ▸ hi))

/-- The guard of a USER operation. -/
theorem userOp_mem_of_userPayload {n : BitVec 3} {len : PayloadLen} {P : PayloadBits}
    (h : userPayload n len P = true) : userOp k n ∈ decodePayload k len P := by
  have hproto : protoOp k P = userOp k n := protoOp_eq_userOp_iff.mpr (by simpa [userPayload] using h)
  exact mem_decodePayload.mpr (by simp [hproto])

end Guards

/-- A message operation away from its selection. -/
theorem exec_msg_of_notMem_ops {i : Instr} (s : State) (hi : i.format = .msg) (h : i ∉ s.regs.ops) :
    exec i s = .next s := by
  match i, hi with
  | .msgWords k, _ => exact exec_drive_of_notMem_ops rfl (fun _ => mem_decodeMsg.mpr (.inl rfl)) h
  | .fmtHk k, _ => exact exec_drive_of_notMem_ops rfl (fmtOp_mem_of_class (c := .housekeeping)) h
  | .fmtShort k, _ => exact exec_drive_of_notMem_ops rfl (fmtOp_mem_of_class (c := .short)) h
  | .fmtLong k, _ => exact exec_drive_of_notMem_ops rfl (fmtOp_mem_of_class (c := .long)) h
  | .chkS2Short k, _ | .chkS2Long k, _ | .chkS3Short k, _ | .chkS3Long k, _ | .chkC2Short k, _ | .chkC2Long k, _ =>
    exact exec_drive_of_notMem_ops rfl (chkOp_mem_of_isMsg (List.mem_singleton_self _)) h
  | .w0Level k, _ | .w0Rt k, _ | .w0Latest k, _ | .tcSarsat k, _ =>
    refine exec_drive_of_notMem_ops rfl (sarsatOp_mem fun d hd => ?_) h
    cases d <;> simp [w0Ops, tcOp] at hd ⊢
  | .w0S2Dru k, _ | .w0S2Pseudo k, _ | .w0S3Type k, _ | .w0S3Serial k, _ | .w0C2 k, _ | .tcC2 k, _ =>
    exact exec_drive_of_notMem_ops rfl (dialectOp_mem (by simp [w0Ops, tcOp])) h
  | .payShortS2 k, _ | .payShortS3 k, _ | .payShortC2 k, _ | .payLongS2 k, _ | .payLongS3 k, _ | .payLongC2 k, _ =>
    exact exec_drive_of_notMem_ops rfl (payOp_mem_of_isMsg (by simp [payOps])) h
  | .dopShort k, _ | .dopLong k, _ =>
    refine exec_drive_of_notMem_ops rfl (dopOp_mem_of_class fun d => ?_) h
    cases d <;> simp [payOps]

/-- A beacon operation away from its selection. -/
theorem exec_payload_of_notMem_ops {i : Instr} (s : State) (hi : i.format = .payload) (h : i ∉ s.regs.ops) :
    exec i s = .next s := by
  match i, hi with
  | .bcnHdr k, _ | .bcnCountry k, _ | .bcnBch1 k, _ =>
    exact exec_driveBcn_of_notMem_ops rfl (fun _ _ _ => mem_decodePayload.mpr (by simp)) h
  | .bcnBch2 k, _ | .bcnPos k, _ =>
    refine exec_driveBcn_of_notMem_ops rfl (fun len P hlong => ?_) h
    have hlen : len = .len120 := beq_iff_eq.mp hlong
    exact mem_decodePayload.mpr (by simp [hlen])
  | .protoStdnat k, _ =>
    refine exec_driveBcn_of_notMem_ops rfl (fun len P hstd => ?_) h
    have hproto : protoOp k P = .protoStdnat k := protoOp_eq_standard_iff.mpr (by simpa using hstd)
    exact mem_decodePayload.mpr (by simp [hproto])
  | .protoUser0 k, _ => exact exec_driveBcn_of_notMem_ops rfl (fun _ _ => userOp_mem_of_userPayload (n := 0)) h
  | .protoUser1 k, _ => exact exec_driveBcn_of_notMem_ops rfl (fun _ _ => userOp_mem_of_userPayload (n := 1)) h
  | .protoUser2 k, _ => exact exec_driveBcn_of_notMem_ops rfl (fun _ _ => userOp_mem_of_userPayload (n := 2)) h
  | .protoUser3 k, _ => exact exec_driveBcn_of_notMem_ops rfl (fun _ _ => userOp_mem_of_userPayload (n := 3)) h
  | .protoUser4 k, _ => exact exec_driveBcn_of_notMem_ops rfl (fun _ _ => userOp_mem_of_userPayload (n := 4)) h
  | .protoUser5 k, _ => exact exec_driveBcn_of_notMem_ops rfl (fun _ _ => userOp_mem_of_userPayload (n := 5)) h
  | .protoUser6 k, _ => exact exec_driveBcn_of_notMem_ops rfl (fun _ _ => userOp_mem_of_userPayload (n := 6)) h
  | .protoUser7 k, _ => exact exec_driveBcn_of_notMem_ops rfl (fun _ _ => userOp_mem_of_userPayload (n := 7)) h

/-! ## Pair and sync operations -/

theorem pairReady_iff_toNat {a : Bool} {r : Regs} :
    pairReady a r = true ↔ r.hold = a ∧ r.symcnt.toNat % 2 = 1 ∧ r.symcnt.toNat < 1200 := by
  rw [pairReady_iff, r.symcnt_bit_zero, decide_eq_true_iff]

theorem legalPair_of_not_ready {a : Bool} {r : Regs} (h : ¬ pairReady a r = true) : legalPair a r = r := if_neg h

theorem violatingPair_of_not_ready {a : Bool} {r : Regs} (h : ¬ pairReady a r = true) : violatingPair a r = r :=
  if_neg h

theorem exec_decodePair_of_not_ready {a : Bool} {s : State} (b : Bool) (h : ¬ pairReady a s.regs = true) :
    exec (decodePair a b) s = .next s := by
  have legal := congrArg s.withRegs (legalPair_of_not_ready h)
  have violating := congrArg s.withRegs (violatingPair_of_not_ready h)
  cases a <;> cases b
  · exact congrArg Host.Outcome.next violating
  · exact congrArg Host.Outcome.next legal
  · exact congrArg Host.Outcome.next legal
  · exact congrArg Host.Outcome.next violating

theorem commitReady_iff {r : Regs} : commitReady r = true ↔ r.symcnt.toNat = 1199 ∧ r.violAct = false := by
  simp only [commitReady, Bool.and_eq_true, beq_iff_eq, r.symcnt_eq_last_iff, Bool.not_eq_true']

/-- The guard of a sync operation whose pattern test is `m`. -/
theorem commitReady_and_ne_true {r : Regs} {m : Bool}
    (h : r.symcnt.toNat ≠ 1199 ∨ r.violAct = true ∨ m = false) : ¬ (commitReady r && m) = true := by
  rw [Bool.and_eq_true, commitReady_iff]
  rintro ⟨⟨hcnt, hviol⟩, hm⟩
  rcases h with h | h | h
  · exact h hcnt
  · exact Bool.false_ne_true (hviol.symm.trans h)
  · exact Bool.false_ne_true (h.symm.trans hm)

/-! ## The statement -/

/-- Settles O12, format by format: the guard of a lane operation implies its selection, and the guards of the pair and
sync operations are the conditions on the registers. -/
theorem unselectedOperationsChangeNothing : Obligations.UnselectedOperationsChangeNothing := by
  unfold Obligations.UnselectedOperationsChangeNothing
  refine ⟨fun i s hi h => ?_, fun a b s h => ?_, fun s h => ?_, fun s h => ?_⟩
  · rcases hi with hi | hi
    · exact exec_msg_of_notMem_ops s hi h
    · exact exec_payload_of_notMem_ops s hi h
  · refine exec_decodePair_of_not_ready b fun hready => ?_
    obtain ⟨hhold, hodd, hlt⟩ := pairReady_iff_toNat.mp hready
    rcases h with h | h | h
    · exact h hhold
    · omega
    · omega
  · rw [decodeFrame_eq_syncMiss_iff] at h
    exact congrArg Host.Outcome.next (if_neg (commitReady_and_ne_true h))
  · rw [decodeFrame_eq_syncMatch_iff, ← Bool.not_eq_false' (b := syncMatch _)] at h
    exact congrArg Host.Outcome.next (if_neg (commitReady_and_ne_true h))

end Sys2Proof.Machine
end

section
/-! The fields of a beacon payload as numbers read from the frame's bytes (20_memory R64), and what each beacon
operation drives from them (44_beacon_payload R231 to R254). -/
namespace Sys2Proof.Machine

/-! ## Payload fields -/

theorem PayloadLen.code_ge (len : PayloadLen) : 88 ≤ len.code.toNat := by cases len <;> decide

/-- The first bit and the length of a lane's payload fix its bits (43_message_fields R206). -/
theorem Regs.payload_bitsOf {r : Regs} {k : Lane} {p : PayloadLen × PayloadBits} (hp : r.payload k = some p) :
    PayloadBitsOf r k (p.1 == .len120) p.1.code.toNat p.2 := by
  rcases Regs.payload_valid hp with ⟨-, hv⟩ | ⟨-, hv⟩
  · obtain rfl := Option.some.inj (hp.symm.trans hv.payload)
    exact payShort_bitsOf r k
  · obtain rfl := Option.some.inj (hp.symm.trans hv.payload)
    exact payLong_bitsOf r k

section Bits
variable {r : Regs} {k : Lane} {pre : Bool} {len a : Nat} {P : PayloadBits}
  (hP : PayloadBitsOf r k pre len P) (ha : 1 ≤ a)
include hP ha

/-- A field of a payload behind its first bit is the number its frame bits spell (00_scope R11, 20_memory R64). -/
theorem PayloadBitsOf.field_toNat {w : Nat} (hlen : a + w ≤ len) (h : a + w ≤ 120) :
    (bits P a w).toNat = beaconNat r k a w := by
  rw [toNat_eq_foldl, beaconNat, memNat]
  refine List.foldl_ext _ _ _ fun acc i hi => ?_
  have hi := List.mem_range.mp hi
  have haddr : 192 * laneIndex k + payloadAddr r.dialect + (a + i) - 1 =
      192 * laneIndex k + payloadAddr r.dialect + a - 1 + i := by omega
  rw [bits_getMsbD _ hi h, hP _ (by omega), if_neg (by omega), if_pos (by omega), haddr]

theorem PayloadBitsOf.field_eq {w : Nat} (hlen : a + w ≤ len) (h : a + w ≤ 120) :
    bits P a w = BitVec.ofNat w (beaconNat r k a w) := by
  rw [← hP.field_toNat ha hlen h, BitVec.ofNat_toNat, BitVec.setWidth_eq]

/-- A single bit is a field of width 1. -/
theorem PayloadBitsOf.bit_eq (hlen : a < len) (h : a < 120) : bitAt P a = (beaconNat r k a 1 == 1) := by
  rw [Bool.eq_iff_iff, beq_iff_eq, bitAt_eq_true_iff P h, ← hP.field_toNat ha hlen h, bits_toNat,
    Nat.sub_right_comm 120 a 1, pow_one]

end Bits

section Fields
variable {r : Regs} {k : Lane} {p : PayloadLen × PayloadBits} (hp : r.payload k = some p)
include hp

/-- A field within the first 88 bits, which payloads of both lengths have. -/
theorem Regs.payload_field_toNat {a w : Nat} (ha : 1 ≤ a) (h : a + w ≤ 88) :
    (bits p.2 a w).toNat = beaconNat r k a w :=
  (Regs.payload_bitsOf hp).field_toNat ha (h.trans (PayloadLen.code_ge p.1)) (by omega)

theorem Regs.payload_field {a w : Nat} (ha : 1 ≤ a) (h : a + w ≤ 88) :
    bits p.2 a w = BitVec.ofNat w (beaconNat r k a w) :=
  (Regs.payload_bitsOf hp).field_eq ha (h.trans (PayloadLen.code_ge p.1)) (by omega)

/-- The protocol flag is the second bit (44_beacon_payload R231). -/
theorem Regs.payload_protocolFlag : protocolFlagOf p.2 = (beaconNat r k 1 1 == 1) :=
  (Regs.payload_bitsOf hp).bit_eq le_rfl (Nat.lt_of_lt_of_le (by omega) (PayloadLen.code_ge p.1)) (by omega)

/-- The protocol number is three bits from bit 11 on (44_beacon_payload R237). -/
theorem Regs.payload_protocolNum {n : BitVec 3} (hnum : beaconNat r k 11 3 = n.toNat) : protocolNumOf p.2 = n := by
  rw [protocolNumOf, Regs.payload_field hp (by omega) (by omega), hnum, BitVec.ofNat_toNat, BitVec.setWidth_eq]

theorem Regs.payload_id46 : id46 p.2 = BitVec.ofNat 46 (beaconNat r k 15 46) :=
  Regs.payload_field hp (by omega) (by omega)

theorem Regs.payload_id42 : id42 p.2 = BitVec.ofNat 46 (beaconNat r k 15 42) := by
  rw [id42, ← Regs.payload_field_toNat hp (by omega) (by omega), BitVec.ofNat_toNat]

theorem Regs.payload_id30 : id30 p.2 = BitVec.ofNat 46 (beaconNat r k 19 30) := by
  rw [id30, ← Regs.payload_field_toNat hp (by omega) (by omega), BitVec.ofNat_toNat]

/-- The four groups of six bits of a call sign (44_beacon_payload R244). -/
theorem Regs.payload_callsign : callsignOf p.2 =
    { c0 := baudotChar (BitVec.ofNat 6 (beaconNat r k 15 6))
      c1 := baudotChar (BitVec.ofNat 6 (beaconNat r k 21 6))
      c2 := baudotChar (BitVec.ofNat 6 (beaconNat r k 27 6))
      c3 := baudotChar (BitVec.ofNat 6 (beaconNat r k 33 6)) } := by
  have group {a : Nat} (ha : 1 ≤ a) (h : a + 6 ≤ 88) := Regs.payload_field hp ha h
  rw [callsignOf, group (by omega) (by omega), group (by omega) (by omega), group (by omega) (by omega),
    group (by omega) (by omega)]

end Fields

section LongFields
variable {r : Regs} {k : Lane} {P : PayloadBits} (hp : r.payload k = some (.len120, P))
include hp

theorem Regs.longPayload_bch2 : bits P 107 12 = BitVec.ofNat 12 (beaconNat r k 107 12) :=
  (Regs.payload_bitsOf hp).field_eq (by omega) (by omega : 107 + 12 ≤ 120) (by omega)

/-- The position of a 120-bit payload (44_beacon_payload R248 to R254). -/
theorem Regs.longPayload_position : positionOf P =
    { source  := beaconNat r k 82 1 == 1
      latFlag := beaconNat r k 83 1 == 1
      latDeg  := BitVec.ofNat 7 (beaconNat r k 84 7)
      latMin4 := BitVec.ofNat 4 (beaconNat r k 91 4)
      latMin  := BitVec.ofNat 6 (4 * beaconNat r k 91 4)
      lonFlag := beaconNat r k 95 1 == 1
      lonDeg  := BitVec.ofNat 8 (beaconNat r k 95 8)
      lonMin4 := BitVec.ofNat 4 (beaconNat r k 103 4)
      lonMin  := BitVec.ofNat 6 (4 * beaconNat r k 103 4) } := by
  have hP := Regs.payload_bitsOf hp
  have field {a w : Nat} (ha : 1 ≤ a) (h : a + w ≤ 120) : bits P a w = BitVec.ofNat w (beaconNat r k a w) :=
    hP.field_eq ha h h
  have bit {a : Nat} (ha : 1 ≤ a) (h : a < 120) : bitAt P a = (beaconNat r k a 1 == 1) := hP.bit_eq ha h h
  have minutes {a : Nat} (ha : 1 ≤ a) (h : a + 4 ≤ 120) :
      minutesOf (bits P a 4) = BitVec.ofNat 6 (4 * beaconNat r k a 4) := by
    rw [minutesOf, hP.field_toNat ha h h]
  rw [positionOf, minutes (by omega) (by omega), minutes (by omega) (by omega), field (by omega) (by omega),
    field (by omega) (by omega), field (by omega) (by omega), field (by omega) (by omega), bit (by omega) (by omega),
    bit (by omega) (by omega), bit (by omega) (by omega)]

end LongFields

/-! ## Selected beacon operations -/

section Drives
variable {s : State} {k : Lane} {i : Instr} {p : PayloadLen × PayloadBits}

/-- A beacon operation selected for the lane's payload drives the lane's beacon record and nothing else
(44_beacon_payload R230). -/
theorem DrivesBeacon.of_driveBcn {sel : PayloadLen → PayloadBits → Bool} {f : PayloadBits → BcnOut → BcnOut}
    {B : BcnOut} (hi : exec i s = .next (s.driveBcn k sel f)) (hp : s.regs.payload k = some p)
    (hsel : sel p.1 p.2 = true) (hB : f p.2 (s.bcnRec k p) = B) : DrivesBeacon (exec i s) s k B := by
  rw [DrivesBeacon, DrivesLane, hi, State.driveBcn_selected hp hsel, ← hB, State.bcnRec]

/-- The operation of USER protocol `n`: class and number from the payload, identification and call sign as the protocol
says (44_beacon_payload R237). -/
theorem DrivesBeacon.of_user {kind : BitVec 3} (n : BitVec 3) (id : PayloadBits → Option (BitVec 46))
    (cs : PayloadBits → Option CallsignOut)
    (hi : exec i s = .next (s.driveBcn k (userPayload n) fun P B => B.withUser P kind (id P) (cs P)))
    (hp : s.regs.payload k = some p) (hflag : beaconNat s.regs k 1 1 = 1) (hnum : beaconNat s.regs k 11 3 = n.toNat) :
    DrivesBeacon (exec i s) s k
      { s.bcnRec k p with
        user := true, protocolNum := some n, idKind := kind, idValue := id p.2, callsign := cs p.2 } := by
  have huser : protocolFlagOf p.2 = true := by rw [Regs.payload_protocolFlag hp, hflag, beq_self_eq_true]
  have hn := Regs.payload_protocolNum hp hnum
  refine .of_driveBcn hi hp ?_ ?_
  · rw [userPayload, huser, hn, beq_self_eq_true, Bool.true_and]
  · rw [BcnOut.withUser, hn]

end Drives

/-! ## The call-sign alphabet -/

theorem baudotChar_fiftySix : baudotChar 56#6 = { code := 0x41#8, miss := false } := rfl

theorem baudotChar_of_entry {g : BitVec 6} {c : { c : Byte // c ≠ 0x2A }} (hg : g ≠ 56#6)
    (h : Config.baudotOpen g = some c) : baudotChar g = { code := c.val, miss := false } := by
  simp [baudotChar, baudotRom, hg, h]

theorem baudotChar_of_no_entry {g : BitVec 6} (hg : g ≠ 56#6) (h : Config.baudotOpen g = none) :
    baudotChar g = { code := 0x2A#8, miss := true } := by
  simp [baudotChar, baudotRom, hg, h]

/-- The miss flag and "*" stand together, at exactly the groups without an entry (44_beacon_payload R246). -/
theorem baudotChar_miss_iff (g : BitVec 6) :
    ((baudotChar g).miss = true ↔ (baudotChar g).code = 0x2A#8) ∧
      ((baudotChar g).miss = true ↔ g ≠ 56#6 ∧ Config.baudotOpen g = none) := by
  by_cases hg : g = 56#6
  · subst hg
    rw [baudotChar_fiftySix]
    simp
  · cases h : Config.baudotOpen g with
    | none =>
      rw [baudotChar_of_no_entry hg h]
      simp [hg]
    | some c =>
      rw [baudotChar_of_entry hg h]
      exact ⟨iff_of_false nofun c.property, iff_of_false nofun nofun⟩

/-! ## The statements -/

/-- Settles O52: the fields stand within the first 88 bits, which the frame spells for both lengths
(`Regs.payload_field`). -/
theorem headerCountryAndCheckField : Obligations.HeaderCountryAndCheckField := by
  unfold Obligations.HeaderCountryAndCheckField
  intro s k p hp
  have hcountry : countryCodeOf p.2 = BitVec.ofNat 10 (beaconNat s.regs k 2 10) :=
    Regs.payload_field hp (by omega) (by omega)
  rw [← Regs.payload_protocolFlag hp, ← hcountry, ← Regs.payload_field hp (a := 61) (by omega) (by omega)]
  exact ⟨.of_driveBcn rfl hp rfl rfl, .of_driveBcn rfl hp rfl rfl, .of_driveBcn rfl hp rfl rfl⟩

/-- Settles O53: the second check field and the position of a 120-bit payload (`Regs.longPayload_position`). -/
theorem longPayloadHasCheckFieldAndPosition : Obligations.LongPayloadHasCheckFieldAndPosition := by
  unfold Obligations.LongPayloadHasCheckFieldAndPosition
  intro s k P hp
  rw [← Regs.longPayload_bch2 hp, ← Regs.longPayload_position hp]
  exact ⟨.of_driveBcn rfl hp rfl rfl, .of_driveBcn rfl hp rfl rfl⟩

/-- Settles O54: each protocol's identification is its field, zero-extended to 46 bits. -/
theorem identifiedProtocols : Obligations.IdentifiedProtocols := by
  unfold Obligations.IdentifiedProtocols
  intro s k p hp hflag
  rw [← Regs.payload_id46 hp, ← Regs.payload_id42 hp, ← Regs.payload_id30 hp]
  refine ⟨?_, ?_, ?_, ?_⟩
  · exact .of_user 0 (fun P => some (id46 P)) (fun _ => none) rfl hp hflag
  · exact .of_user 1 (fun P => some (id42 P)) (fun _ => none) rfl hp hflag
  · exact .of_user 2 (fun P => some (id42 P)) (fun _ => none) rfl hp hflag
  · exact .of_user 3 (fun P => some (id30 P)) (fun _ => none) rfl hp hflag

/-- Settles O55: the STANDARD_NATIONAL operation clears the USER part, the others drive the number alone. -/
theorem protocolsWithoutIdentification : Obligations.ProtocolsWithoutIdentification := by
  unfold Obligations.ProtocolsWithoutIdentification
  intro s k p hp
  refine ⟨fun hflag => ?_, ?_, ?_, ?_⟩
  · have hstd : protocolFlagOf p.2 = false := by rw [Regs.payload_protocolFlag hp, hflag]; rfl
    exact .of_driveBcn rfl hp (congrArg not hstd) rfl
  · exact .of_user 4 (fun _ => none) (fun _ => none) rfl hp
  · exact .of_user 5 (fun _ => none) (fun _ => none) rfl hp
  · exact .of_user 7 (fun _ => none) (fun _ => none) rfl hp

/-- Settles O56: the groups are fields of the payload (`Regs.payload_callsign`), their characters those of the table
(`baudotChar_miss_iff`). -/
theorem radioCallSignOfProtocolSix : Obligations.RadioCallSignOfProtocolSix := by
  unfold Obligations.RadioCallSignOfProtocolSix
  refine ⟨fun s k p hp hflag hnum => ?_, baudotChar_fiftySix, baudotChar_miss_iff⟩
  rw [← Regs.payload_callsign hp]
  exact .of_user 6 (fun _ => none) (fun P => some (callsignOf P)) rfl hp hflag hnum

end Sys2Proof.Machine
end

section
/-! The beacon record beside its message (44_beacon_payload R230, R255, R256). -/
namespace Sys2Proof.Machine

/-- The first bit of a SHORT payload (43_message_fields R206). -/
theorem payShort_bit_zero (d : Dialect) (M : MsgBits) : bitAt (payShort (payStart d) M) 0 = false := by
  have hstart := payStart_le d
  rw [bitAt, payShort_getMsbD _ _ (by omega) (by omega), if_pos rfl]

/-- The first bit of a LONG payload (43_message_fields R206). -/
theorem payLong_bit_zero (d : Dialect) (M : MsgBits) : bitAt (payLong (payStart d) M) 0 = true := by
  have hstart := payStart_le d
  rw [bitAt, payLong_getMsbD _ _ (by omega) (by omega), if_pos rfl]

/-- A payload is that of a SHORT message or that of a LONG one (43_message_fields R206). -/
theorem payloadOf_cases {d : Dialect} {M : MsgBits} {p : PayloadLen × PayloadBits} (h : payloadOf d M = some p) :
    (classify M = .short ∧ p = (.len88, payShort (payStart d) M)) ∨
      (classify M = .long ∧ p = (.len120, payLong (payStart d) M)) := by
  rw [payloadOf, Option.ite_none_right_eq_some] at h
  obtain ⟨-, h⟩ := h
  cases hc : classify M with
  | housekeeping => simp [hc] at h
  | short => exact .inl ⟨rfl, by simpa [hc] using h.symm⟩
  | long => exact .inr ⟨rfl, by simpa [hc] using h.symm⟩

/-- `format_flag` is the type, and with it the message's class (44_beacon_payload R230, R256). -/
theorem payload_bit_zero_and_class {d : Dialect} {M : MsgBits} {p : PayloadLen × PayloadBits}
    (h : payloadOf d M = some p) :
    bitAt p.2 0 = (p.1 == .len120) ∧ p.1.code = (if p.1 == .len120 then 120#7 else 88#7) ∧
      (classify M).code = if p.1 == .len120 then 1#2 else 0#2 := by
  rcases payloadOf_cases h with ⟨hc, rfl⟩ | ⟨hc, rfl⟩
  · rw [hc]
    exact ⟨payShort_bit_zero d M, rfl, rfl⟩
  · rw [hc]
    exact ⟨payLong_bit_zero d M, rfl, rfl⟩

/-- Settles O58: after a step the lane's record is the output function's, whose payload and beacon record are of one
payload (`payloadOf_isSome`, `payload_bit_zero_and_class`). -/
theorem beaconRecordMatchesItsMessage : Obligations.BeaconRecordMatchesItsMessage := by
  unfold Obligations.BeaconRecordMatchesItsMessage
  intro s
  obtain ⟨t, ht, hset⟩ := step_settled s
  refine ⟨t, ht, fun k L hL => ?_⟩
  obtain rfl := Regs.laneRecord_eq_some (hset.lane k ▸ hL)
  have hvalid := payloadOf_isSome t.regs.dialect (t.regs.msg k)
  refine ⟨rfl, Option.isSome_map.trans hvalid, Bool.eq_iff_iff.mpr Option.isSome_ite,
    Option.isSome_map.trans hvalid, fun B hB => ?_⟩
  obtain ⟨p, hp, rfl⟩ := Option.map_eq_some_iff.mp hB
  exact ⟨rfl, congrArg (Option.map _) hp, payload_bit_zero_and_class hp⟩

end Sys2Proof.Machine
end

section
/-! The outputs of the reset state (70_reset_and_hazards R301). -/
namespace Sys2Proof.Machine

/-- The outputs at reset are the output function of the reset registers (10_state R50). -/
theorem decodeOutputs_reset : decodeOutputs Regs.reset = Output.reset := rfl

theorem nothingShown_reset : NothingShown Output.reset where
  present := rfl
  valid := rfl
  len := rfl
  bytes := rfl
  count := rfl
  lanes k := by cases k <;> rfl

/-- Either reset leaves the ports as they are at reset, whatever they showed before. -/
theorem step_out_of_resets {s : State} (h : s.pins.resets = true) : Goes (step s) fun t => t.out = Output.reset := by
  obtain ⟨t, ht, hregs, hset⟩ := step_regs s
  rw [Pins.regsAfter_of_resets h] at hregs
  rw [Settled, hregs, decodeOutputs_reset] at hset
  exact ⟨t, ht, hset⟩

/-- Settles O14: both resets drive the ports of `Output.reset` (`step_out_of_resets`), which show nothing. -/
theorem resetShowsNothing : Obligations.ResetShowsNothing := by
  unfold Obligations.ResetShowsNothing
  refine ⟨⟨nothingShown_reset, rfl, rfl, rfl, rfl, rfl⟩, fun s h => ?_⟩
  obtain ⟨t, ht, hout⟩ := step_out_of_resets h
  refine ⟨t, ht, ?_⟩
  beta_reduce
  rw [hout]
  exact ⟨nothingShown_reset, rfl, rfl, rfl, rfl, rfl⟩

end Sys2Proof.Machine
end
